-- ==== Sys2Proof/Word.lean ====
section
/-! DEFINITION. The machine's one word width: every register, code and data item is one byte
(spec R7, R10: "every data item moved is one byte"; all values are unsigned). -/

namespace Sys2Proof

/-- An 8-bit value; `a + b` on it is modulo 256 (R10). -/
abbrev Byte := BitVec 8

end Sys2Proof
end

