-- ==== Sys2Proof/Config.lean ====
section
/-! DEFINITION. The BLOCK's implementation parameters (spec R8) and the free values of the model.
The parameters are plain data carried by the state, so that a statement about every state is a
statement about every parameter setting: "A model takes each as an argument" (R8).
The constraints of R9 are in WellFormed.lean. -/

namespace Sys2Proof

/-- `CTRL_BASE` (R8, R50): the address of each controller register in the BLOCK's lower interface,
and of the prescaler field whose location R113 leaves OPEN. -/
structure CtrlBase where
  rate      : Nat
  control   : Nat
  status    : Nat
  data      : Nat
  prescaler : Nat
  deriving DecidableEq, Repr, Inhabited

/-- The parameters of R8, in the order of its table, and the platform parameter of R311. -/
structure Config where
  /-- `STATUS_MASK` -/
  statusMask      : Byte
  /-- `ST_START_SENT`: named, never compared (R179). -/
  stStartSent     : Byte
  stAddrAckWrite  : Byte
  stAddrAckRead   : Byte
  stDataAckWrite  : Byte
  stDataAckRead   : Byte
  stDataNackRead  : Byte
  /-- `CTL_INT`: bit position of the completion flag in CONTROL (R51). -/
  ctlInt          : Nat
  ctlEa           : Nat
  ctlSta          : Nat
  ctlSto          : Nat
  ctlEn           : Nat
  /-- `RATE_DIVISOR` (OPEN) -/
  rateDivisor     : Byte
  /-- `RATE_PRESCALER` (OPEN): `none`, or a 2-bit value. -/
  ratePrescaler   : Option (BitVec 2)
  /-- `STOP_ON_FAIL` -/
  stopOnFail      : Bool
  /-- `POLL_LIMIT`: `none` is the unbounded wait. -/
  pollLimit       : Option Nat
  /-- `TIMEOUT_CODE` -/
  timeoutCode     : Byte
  /-- `HOST_BASE` (OPEN) -/
  hostBase        : Nat
  /-- `CTRL_BASE` (OPEN) -/
  ctrlBase        : CtrlBase
  /-- `BUF_SIZE` -/
  bufSize         : Nat
  /-- Whether the controller is reset with the BLOCK: "a platform matter (OPEN)" (R311). -/
  controllerReset : Bool
  deriving DecidableEq, Repr

/-! The OPEN parameters: each implementation decides; no proof can see a value (log entry 2). -/

/-- `RATE_DIVISOR`, OPEN in R8. -/
opaque Config.openRateDivisor : Byte
/-- `RATE_PRESCALER`, OPEN in R8. -/
opaque Config.openRatePrescaler : Option (BitVec 2)
/-- `HOST_BASE`, OPEN in R8. -/
opaque Config.openHostBase : Nat
/-- `CTRL_BASE`, OPEN in R8. -/
opaque Config.openCtrlBase : CtrlBase
/-- Whether the controller is reset with the BLOCK, OPEN in R311. -/
opaque Config.openControllerReset : Bool

/-- The default column of R8; the OPEN rows stay the uninterpreted constants above. -/
def Config.default : Config where
  statusMask      := 0xF8#8
  stStartSent     := 0x08#8
  stAddrAckWrite  := 0x18#8
  stAddrAckRead   := 0x40#8
  stDataAckWrite  := 0x28#8
  stDataAckRead   := 0x50#8
  stDataNackRead  := 0x58#8
  ctlInt          := 7
  ctlEa           := 6
  ctlSta          := 5
  ctlSto          := 4
  ctlEn           := 2
  rateDivisor     := Config.openRateDivisor
  ratePrescaler   := Config.openRatePrescaler
  stopOnFail      := true
  pollLimit       := none
  timeoutCode     := 0x01#8
  hostBase        := Config.openHostBase
  ctrlBase        := Config.openCtrlBase
  bufSize         := 256
  controllerReset := Config.openControllerReset

/-! The ENV draws no input gives (R52: "an ENV draw, a free input of the BLOCK's step under no
law"): uninterpreted functions of the draw's number (log entry 3). No fairness is assumed. -/

/-- The byte CONTROL reads at the n-th poll, where the state's list of ENV answers is exhausted. -/
opaque Config.freeControl : Nat → Byte
/-- The byte STATUS would read at the n-th poll, where the list of ENV answers is exhausted. -/
opaque Config.freeStatus : Nat → Byte
/-- The byte DATA would read at the n-th poll, where the list of ENV answers is exhausted. -/
opaque Config.freeData : Nat → Byte

end Sys2Proof
end

