-- ==== Sys2Proof/Syntax.lean ====
section
/-! DEFINITION. The words of the machine: the phases (R120), the spaces an encoded byte can belong
to, and `Instr`, one constructor for every row of spec/opcode_table.json, in the table's order. -/

namespace Sys2Proof

/-- The thirteen values of the sequencer state `fsm`, the BLOCK's program counter (R30, R120). -/
inductive Phase where
  | idle | config | start | addrW | memH | memL | restart | addrR
  | readData | writeData | stop | failStop | busStop
  deriving DecidableEq, Repr

/-- The controller's mode, set by the direction bit of the last address byte it sent. It is "the
only mode that changes a decoding" (R112, R124). -/
inductive CtlMode where
  | transmit | receive
  deriving DecidableEq, Repr

/-- The `space` column of the opcode table: what kind of word a byte is. -/
inductive Space where
  /-- a byte written to CMD (R100) -/
  | cmd
  /-- a word written to CONTROL (R111), in the controller's mode -/
  | ctl (m : CtlMode)
  /-- a byte written to RATE (R113) -/
  | rate
  /-- the address byte sent after a start (R104) -/
  | busAddr
  /-- a byte read from STATUS (R108) -/
  | status
  /-- a phase code (R120) -/
  | phase
  /-- a HOST access (R122) -/
  | host
  deriving DecidableEq, Repr

/-- One constructor per row of spec/opcode_table.json. -/
inductive Instr where
  /- space CMD (R101): HOST writes this byte to CMD -/
  | nop
  | configureRate
  | transferWrite
  | transferRead
  | stopBus
  | reservedOp5
  | reservedOp6
  | reservedOp7
  /-- every CMD byte whose bits 7:3 are not zero (R102) -/
  | reservedRsv (rsv : BitVec 5) (op : BitVec 3)
  /- space CTL (R111): the BLOCK issues this primitive -/
  | start
  | stop
  /-- the byte sent stands in DATA, not in the control word (R148) -/
  | tx (b : Byte)
  | rxAck
  | rxNack
  /- space RATE (R113, R141) -/
  | setRate (d : Byte)
  /- space BUS_ADDR (R104): the address byte of the 7-bit slave address `a` -/
  | addrWriteByte (a : BitVec 7)
  | addrReadByte (a : BitVec 7)
  /- space STATUS (R108, R109): the controller answers with this code; `low` is bits 2:0 -/
  | startSent (low : BitVec 3)
  | addrAckWrite (low : BitVec 3)
  | addrAckRead (low : BitVec 3)
  | dataAckWrite (low : BitVec 3)
  | dataAckRead (low : BitVec 3)
  | dataNackRead (low : BitVec 3)
  /- space PHASE (R120): one BLOCK step in this phase -/
  | phIdle
  | phConfig
  | phStart
  | phAddrW
  | phMemH
  | phMemL
  | phRestart
  | phAddrR
  | phReadData
  | phWriteData
  | phStop
  | phFailStop
  | phBusStop
  /- space HOST (R122): one HOST access at a window offset -/
  | hostWrite (off : Nat) (data : Byte)
  | hostRead (off : Nat)
  deriving DecidableEq, Repr

end Sys2Proof
end

