-- ==== Sys2Proof/Machine/State.lean ====
section
/-! DEFINITION. The machine's state, as plain data: the HOST-visible registers and the data buffer
(10_state.md sections 1, 2), the sequencer (section 3), the controller registers the BLOCK drives
(section 4), what the three agents have pending, and the model's own records (R36, R143).
`State.reset` is R60. -/

namespace Sys2Proof.Machine

/-- Within a phase: the register writes to ENV, then the polls (R31). -/
inductive Sub where
  | issue | wait
  deriving DecidableEq, Repr

/-- `dir` (R33). -/
inductive Direction where
  | write | read
  deriving DecidableEq, Repr

/-- STAT.OUTCOME (R25). -/
inductive XferOutcome where
  | none | complete | failed | timedOut
  deriving DecidableEq, Repr

/-- `pend` (R34): the outcome the fail path will report. -/
inductive Pend where
  | failed | timedOut
  deriving DecidableEq, Repr

/-- The registers of the BLOCK's lower interface (R50), and the prescaler field (R113). -/
inductive CtlReg where
  | rate | prescaler | control | status | data
  deriving DecidableEq, Repr

/-- One byte access of the BLOCK to the lower interface: `CtlWrite(r, v)`, or `CtlRead(r)` with the
byte it returned (R11, R83). -/
inductive EnvAccess where
  | write (r : CtlReg) (v : Byte)
  | read (r : CtlReg) (v : Byte)
  deriving DecidableEq, Repr

/-- The six primitives of R140, with the operand byte of SET_RATE and TX. -/
inductive Primitive where
  | setRate (d : Byte)
  | start
  | stop
  | tx (b : Byte)
  | rxAck
  | rxNack
  deriving DecidableEq, Repr

/-- An entry of the bus trace (R143): a primitive, or the entry that records a reset. -/
inductive TraceEntry where
  | prim (p : Primitive)
  | reset
  deriving DecidableEq, Repr

/-- What ENV answers at one poll (R52): the controller registers as the BLOCK would read them. -/
structure EnvDraw where
  control : Byte
  status  : Byte
  data    : Byte
  deriving DecidableEq, Repr

/-- The controller registers (R50): the last byte written by the BLOCK or shown by ENV. The
prescaler field is two bits (R113). -/
structure Controller where
  rate      : Byte
  prescaler : BitVec 2
  control   : Byte
  status    : Byte
  data      : Byte
  deriving DecidableEq, Repr

/-- The two kinds of HOST access (R122). -/
inductive AccessKind where
  | write | read
  deriving DecidableEq, Repr

/-- A HOST access by address and width, as a bus would carry it; R122's words are the 8-bit ones
inside the window. -/
structure RawAccess where
  kind : AccessKind
  /-- width of the access in bits (R71) -/
  bits : Nat
  /-- `HOST_BASE + off` (R70) -/
  addr : Nat
  /-- the byte of an 8-bit write -/
  data : Byte
  deriving DecidableEq, Repr

/-- One event of the single total order of R85: a HOST access (encoded as R122, or raw), a turn of
the BLOCK, or the reset input (R310). -/
inductive Input where
  | host (word : List Byte)
  | raw (a : RawAccess)
  | block
  | reset
  deriving DecidableEq, Repr

/-- The data buffer's bytes by index: the written ones only, indices strictly rising (Ops.lean). -/
abbrev Memory := List Host.Cell

/-- The model faults of R276. Each is a violation of a HOST duty or a use of a byte no one wrote;
each is recorded in `State.faulted` by the step that meets it and answered by the next step
(log entry 1). All are safe: the model stops where the hardware goes on. -/
inductive Fault where
  /-- a HOST access of another width than 8 bits (R71); raised by a raw access; safe -/
  | accessWidth
  /-- a HOST access at an unmapped offset (R72); raised by HOST_READ and HOST_WRITE; safe -/
  | unmappedOffset
  /-- a HOST access to BUF while BUSY = 1 (R76); raised by HOST_READ and HOST_WRITE; safe -/
  | bufWhileBusy
  /-- a HOST write of SLA, MAH, MAL or LEN while BUSY = 1 (R256); raised by HOST_WRITE; safe -/
  | descriptorWhileBusy
  /-- a HOST read of a BUF byte never written (R77); raised by HOST_READ; safe -/
  | bufReadUnwritten
  /-- WRITE_DATA sending a BUF byte never written (R190); raised by phase WRITE_DATA; safe -/
  | txUnwritten
  /-- a TRANSFER accepted while STAT.RATE_CFG = 0 (R253); raised by TRANSFER_WRITE and
  TRANSFER_READ; safe -/
  | rateNotConfigured
  deriving DecidableEq, Repr

/-- Why a step has no meaning. -/
inductive Refusal where
  /-- an instruction whose meaning is not written (none is left); raised by exec's arm; safe -/
  | notModelled (mnemonic : String)
  /-- the configuration breaks R9 ("refuses a configuration that breaks them"); raised by the
  step; safe -/
  | badConfig
  /-- bytes that are no HOST access of R122; raised by the step; safe: no agent can send them -/
  | badHostWord
  /-- a phase whose code is no phase code; raised by the step, and never, since every phase has a
  code (R120); safe -/
  | badPhaseCode
  deriving DecidableEq, Repr

/-- The state. -/
structure State where
  /-- the parameters (R8); no step changes them -/
  cfg       : Config
  /- HOST-visible registers (R20) -/
  sla       : Byte
  mah       : Byte
  mal       : Byte
  len       : Byte
  /-- STAT[2:1] (R25) -/
  outcome   : XferOutcome
  /-- STAT[3] (R25) -/
  rateCfg   : Bool
  /-- STAT[4] (R25) -/
  cmdRej    : Bool
  result    : Byte
  /-- PHASE (R27); its byte is `Phase.code` -/
  phase     : Phase
  idx       : Byte
  /-- BUF and `written` (R29, R36): byte `i` is written when the list has an entry for `i` -/
  buf       : Memory
  /- the sequencer (R30 to R34); STAT.BUSY is `fsm ≠ .idle` (R30) -/
  fsm       : Phase
  sub       : Sub
  polls     : Nat
  dir       : Direction
  pend      : Pend
  /-- the controller registers (R50) -/
  ctl       : Controller
  /- the model's own records -/
  /-- `faulted` (R36) -/
  faulted   : Option Fault
  /-- the bus trace (R143), in issue order -/
  trace     : List TraceEntry
  /-- every access of the BLOCK to the lower interface (R83), oldest first -/
  accesses  : List EnvAccess
  /- what the agents have pending -/
  /-- the events to come, the next first (R85); when none is left the BLOCK runs on its own -/
  inputs    : List Input
  /-- ENV's answers to come, the next first (R52); when none is left the draws are free values -/
  env       : List EnvDraw
  /-- the number of draws taken: the argument of the free values -/
  draws     : Nat
  /-- the value HOST's last read returned (R123: the value read by the last `lb`) -/
  hostValue : Byte
  deriving DecidableEq, Repr

/-- The controller registers after power-on. The spec gives none; R53 quotes those of the
AVR-family TWI "for orientation only" (log entry 4, PRESUMED); no rule depends on them. -/
def Controller.powerOn : Controller where
  rate      := 0x00#8
  prescaler := 0#2
  control   := 0x00#8
  status    := 0xF8#8
  data      := 0xFF#8

/-- The machine right after reset (R60), with the parameter defaults of R8 and nothing pending. -/
def State.reset : State where
  cfg       := Config.default
  sla       := 0x00#8
  mah       := 0x00#8
  mal       := 0x00#8
  len       := 0x00#8
  outcome   := .none
  rateCfg   := false
  cmdRej    := false
  result    := 0x00#8
  phase     := .idle
  idx       := 0x00#8
  buf       := []
  fsm       := .idle
  sub       := .issue
  polls     := 0
  dir       := .write
  pend      := .failed
  ctl       := Controller.powerOn
  faulted   := none
  trace     := []
  accesses  := []
  inputs    := []
  env       := []
  draws     := 0
  hostValue := 0x00#8

end Sys2Proof.Machine
end

