-- ==== Sys2Proof/Machine/Flags.lean ====
section
/-! DEFINITION. The STAT register (R25): each field, the byte HOST reads, and who writes
STAT.CMD_REJ (R252). -/

namespace Sys2Proof.Machine

/-- STAT.BUSY: "`BUSY = 1` exactly when `fsm != IDLE`" (R30). -/
def State.busy (s : State) : Bool := decide (s.fsm ≠ .idle)

/-- The two bits of STAT.OUTCOME (R25). -/
def XferOutcome.code : XferOutcome → Byte
  | .none => 0#8
  | .complete => 1#8
  | .failed => 2#8
  | .timedOut => 3#8

/-- STAT.OUTCOME as the fail path reports `pend` (R34). -/
def Pend.outcome : Pend → XferOutcome
  | .failed => .failed
  | .timedOut => .timedOut

/-- A flag as a byte. -/
def flagByte (b : Bool) : Byte := if b then 1#8 else 0#8

/-- `STAT = BUSY | OUTCOME << 1 | RATE_CFG << 3 | CMD_REJ << 4`; bits 7:5 read 0 (R25). -/
def State.stat (s : State) : Byte :=
  flagByte s.busy ||| (s.outcome.code <<< 1) ||| (flagByte s.rateCfg <<< 3)
    ||| (flagByte s.cmdRej <<< 4)

/-- A rejected CMD write: "CMD_REJ <- 1 and nothing else" (R240). -/
def reject (s : State) : State := { s with cmdRej := true }

/-- A CMD write that is not rejected clears CMD_REJ (R240, R252). -/
def clearRej (s : State) : State := { s with cmdRej := false }

end Sys2Proof.Machine
end

