-- ==== Sys2Proof/WellFormed.lean ====
section
/-! DEFINITION. Well-formed instructions (the operands the encodings of 30_encoding.md admit) and
well-formed configurations (the constraints of R9, "which a model checks once on its configuration
and refuses a configuration that breaks them"). -/

namespace Sys2Proof

/-- A window offset of R122 has 9 bits. -/
def offsetFits (off : Nat) : Bool := decide (off < 512)

/-- Which terms of `Instr` an encoding stands for. -/
def Instr.wellFormed : Instr → Bool
  | .reservedRsv rsv _ => decide (rsv ≠ 0#5)
  | .hostWrite off _ => offsetFits off
  | .hostRead off => offsetFits off
  | .nop => true
  | .configureRate => true
  | .transferWrite => true
  | .transferRead => true
  | .stopBus => true
  | .reservedOp5 => true
  | .reservedOp6 => true
  | .reservedOp7 => true
  | .start => true
  | .stop => true
  | .tx _ => true
  | .rxAck => true
  | .rxNack => true
  | .setRate _ => true
  | .addrWriteByte _ => true
  | .addrReadByte _ => true
  | .startSent _ => true
  | .addrAckWrite _ => true
  | .addrAckRead _ => true
  | .dataAckWrite _ => true
  | .dataAckRead _ => true
  | .dataNackRead _ => true
  | .phIdle => true
  | .phConfig => true
  | .phStart => true
  | .phAddrW => true
  | .phMemH => true
  | .phMemL => true
  | .phRestart => true
  | .phAddrR => true
  | .phReadData => true
  | .phWriteData => true
  | .phStop => true
  | .phFailStop => true
  | .phBusStop => true

/-- The six named status codes, in the order of R109. -/
def Config.statusCodes (c : Config) : List Byte :=
  [c.stStartSent, c.stAddrAckWrite, c.stAddrAckRead, c.stDataAckWrite, c.stDataAckRead,
    c.stDataNackRead]

/-- The five bit positions of R51. -/
def Config.ctlPositions (c : Config) : List Nat :=
  [c.ctlInt, c.ctlEa, c.ctlSta, c.ctlSto, c.ctlEn]

/-- R9: "every `ST_*` value satisfies `ST & ~STATUS_MASK = 0`". -/
def Config.statusCodesMasked (c : Config) : Bool :=
  c.statusCodes.all fun st => st &&& ~~~c.statusMask == 0#8

/-- R9: "`TIMEOUT_CODE & STATUS_MASK = 0` and `TIMEOUT_CODE != 0`". -/
def Config.timeoutCodeApart (c : Config) : Bool :=
  (c.timeoutCode &&& c.statusMask == 0#8) && (c.timeoutCode != 0#8)

/-- R9: "the five `CTL_*` positions are distinct and in 0..7". -/
def Config.ctlPositionsFit (c : Config) : Bool :=
  decide c.ctlPositions.Nodup && c.ctlPositions.all fun p => decide (p < 8)

/-- R9: "`POLL_LIMIT`, when `some n`, has n >= 1". -/
def Config.pollLimitPositive (c : Config) : Bool :=
  match c.pollLimit with
  | none => true
  | some n => decide (1 ≤ n)

/-- R9: "`BUF_SIZE >= 255`". -/
def Config.bufLargeEnough (c : Config) : Bool := decide (255 ≤ c.bufSize)

/-- The constraints of R9, all of them. -/
def Config.wf (c : Config) : Bool :=
  c.statusCodesMasked && c.timeoutCodeApart && c.ctlPositionsFit && c.pollLimitPositive
    && c.bufLargeEnough

/-- The six names of R109 can be told apart on a STATUS byte whose top five bits are significant
(R108). R9 does not ask the codes to be distinct, so naming a status needs this, and the BLOCK,
which never names one (R177), does not. -/
def Config.namesStatuses (c : Config) : Bool :=
  (c.statusMask == 0xF8#8) && decide c.statusCodes.Nodup

end Sys2Proof
end

