-- ==== Sys2Proof/Decode.lean ====
section
/-! DEFINITION. Decoding and encoding, from the tables of 30_encoding.md. A byte has a meaning only
in its space (opcode_table.json's `space`), so the decoder takes the space; it is total on any bytes
and rejects by name. The encoder after it is written from the same tables. -/

namespace Sys2Proof

/-- Why bytes are no word of their space. -/
inductive DecodeError where
  /-- the space's words have another number of bytes (R124: every length is fixed) -/
  | wrongLength
  /-- a byte that is none of the five command words of R111 (in the controller's mode) -/
  | notAControlWord
  /-- a masked status that R109 does not name -/
  | unnamedStatus
  /-- a code of 0x0D..0xFF (R120: "never taken") -/
  | notAPhase
  /-- a HOST access whose offset has more than the 9 bits of R122 -/
  | offsetTooLong
  deriving DecidableEq, Repr

/-! ### Phase codes (R120) -/

/-- The code of a phase (R120). -/
def Phase.code : Phase → Byte
  | .idle => 0x00#8
  | .config => 0x01#8
  | .start => 0x02#8
  | .addrW => 0x03#8
  | .memH => 0x04#8
  | .memL => 0x05#8
  | .restart => 0x06#8
  | .addrR => 0x07#8
  | .readData => 0x08#8
  | .writeData => 0x09#8
  | .stop => 0x0A#8
  | .failStop => 0x0B#8
  | .busStop => 0x0C#8

/-- The thirteen phases in the order of their codes. -/
def Phase.all : List Phase :=
  [.idle, .config, .start, .addrW, .memH, .memL, .restart, .addrR, .readData, .writeData, .stop,
    .failStop, .busStop]

/-- The phase a code names, if it names one. -/
def Phase.ofCode (v : Byte) : Option Phase := Phase.all.find? fun p => p.code == v

/-- The row of the opcode table's PHASE space that a phase is. -/
def phaseInstr : Phase → Instr
  | .idle => .phIdle
  | .config => .phConfig
  | .start => .phStart
  | .addrW => .phAddrW
  | .memH => .phMemH
  | .memL => .phMemL
  | .restart => .phRestart
  | .addrR => .phAddrR
  | .readData => .phReadData
  | .writeData => .phWriteData
  | .stop => .phStop
  | .failStop => .phFailStop
  | .busStop => .phBusStop

/-! ### Controller command words (R111) -/

/-- `BIT(n)` of R11. -/
def bit (n : Nat) : Byte := 1#8 <<< n

/-- CW_START: bits INT, STA, EN. -/
def Config.cwStart (c : Config) : Byte := bit c.ctlInt ||| bit c.ctlSta ||| bit c.ctlEn
/-- CW_STOP: bits INT, STO, EN. -/
def Config.cwStop (c : Config) : Byte := bit c.ctlInt ||| bit c.ctlSto ||| bit c.ctlEn
/-- CW_TX: bits INT, EN. -/
def Config.cwTx (c : Config) : Byte := bit c.ctlInt ||| bit c.ctlEn
/-- CW_RX_ACK: bits INT, EA, EN. -/
def Config.cwRxAck (c : Config) : Byte := bit c.ctlInt ||| bit c.ctlEa ||| bit c.ctlEn
/-- CW_RX_NACK: bits INT, EN, the same word as CW_TX (R112). -/
def Config.cwRxNack (c : Config) : Byte := bit c.ctlInt ||| bit c.ctlEn

/-! ### Address bytes (R104) -/

/-- The address byte of the 7-bit address `a` with direction bit `d` (0 write, 1 read). -/
def addressByte (a : BitVec 7) (d : BitVec 1) : Byte := a ++ d

/-- Bits 7:1 of an address byte. -/
def slaveField (b : Byte) : BitVec 7 := b.extractLsb' 1 7

/-! ### Status bytes (R108) -/

/-- The status byte with code `st` and the non-significant bits `low` (R108). -/
def statusByte (st : Byte) (low : BitVec 3) : Byte := st ||| low.setWidth 8

/-! ### The decoder -/

/-- R100 to R102: every byte written to CMD is one of the rows of space CMD. -/
def decodeCmd (v : Byte) : Instr :=
  if v = 0x00#8 then .nop
  else if v = 0x01#8 then .configureRate
  else if v = 0x02#8 then .transferWrite
  else if v = 0x03#8 then .transferRead
  else if v = 0x04#8 then .stopBus
  else if v = 0x05#8 then .reservedOp5
  else if v = 0x06#8 then .reservedOp6
  else if v = 0x07#8 then .reservedOp7
  else .reservedRsv (v.extractLsb' 3 5) (v.extractLsb' 0 3)

/-- R111, R112. TX is laid out as its control word, then the byte that goes to DATA. -/
def decodeCtl (c : Config) (m : CtlMode) : List Byte → Except DecodeError Instr
  | [w] =>
    if w = c.cwStart then .ok .start
    else if w = c.cwStop then .ok .stop
    else if w = c.cwRxAck then .ok .rxAck
    else if w = c.cwRxNack ∧ m = .receive then .ok .rxNack
    else .error .notAControlWord
  | [w, b] => if w = c.cwTx ∧ m = .transmit then .ok (.tx b) else .error .notAControlWord
  | _ => .error .wrongLength

/-- R108, R109: the byte is masked before it is compared with the named codes. -/
def decodeStatus (c : Config) (v : Byte) : Except DecodeError Instr :=
  let st := v &&& c.statusMask
  let low := v.extractLsb' 0 3
  if st = c.stStartSent then .ok (.startSent low)
  else if st = c.stAddrAckWrite then .ok (.addrAckWrite low)
  else if st = c.stAddrAckRead then .ok (.addrAckRead low)
  else if st = c.stDataAckWrite then .ok (.dataAckWrite low)
  else if st = c.stDataAckRead then .ok (.dataAckRead low)
  else if st = c.stDataNackRead then .ok (.dataNackRead low)
  else .error .unnamedStatus

/-- R104: bit 0 is the direction. -/
def decodeBusAddr (v : Byte) : Instr :=
  if v.getLsbD 0 then .addrReadByte (slaveField v) else .addrWriteByte (slaveField v)

/-- R122. A read is two bytes (the offset, low byte first); a write is three (the data byte, then
the offset): the table's `ooooooooo dddddddd` read as one number (log entry 5). -/
def decodeHost : List Byte → Except DecodeError Instr
  | [lo, hi] =>
    if hi.toNat < 2 then .ok (.hostRead (hi.toNat * 256 + lo.toNat)) else .error .offsetTooLong
  | [d, lo, hi] =>
    if hi.toNat < 2 then .ok (.hostWrite (hi.toNat * 256 + lo.toNat) d) else .error .offsetTooLong
  | _ => .error .wrongLength

/-- The decoder: total on any bytes of any space. -/
def decode (c : Config) : Space → List Byte → Except DecodeError Instr
  | .cmd, [v] => .ok (decodeCmd v)
  | .ctl m, bs => decodeCtl c m bs
  | .rate, [d] => .ok (.setRate d)
  | .busAddr, [v] => .ok (decodeBusAddr v)
  | .status, [v] => decodeStatus c v
  | .phase, [v] =>
    match Phase.ofCode v with
    | some p => .ok (phaseInstr p)
    | none => .error .notAPhase
  | .host, bs => decodeHost bs
  | .cmd, _ => .error .wrongLength
  | .rate, _ => .error .wrongLength
  | .busAddr, _ => .error .wrongLength
  | .status, _ => .error .wrongLength
  | .phase, _ => .error .wrongLength

/-! ### The encoder -/

/-- The two bytes of a window offset, low byte first. -/
def offsetBytes (off : Nat) : List Byte := [BitVec.ofNat 8 off, BitVec.ofNat 8 (off / 256)]

/-- The space of an instruction's words. START, STOP and RX_ACK decode alike in both modes. -/
def spaceOf : Instr → Space
  | .nop => .cmd
  | .configureRate => .cmd
  | .transferWrite => .cmd
  | .transferRead => .cmd
  | .stopBus => .cmd
  | .reservedOp5 => .cmd
  | .reservedOp6 => .cmd
  | .reservedOp7 => .cmd
  | .reservedRsv _ _ => .cmd
  | .start => .ctl .transmit
  | .stop => .ctl .transmit
  | .tx _ => .ctl .transmit
  | .rxAck => .ctl .receive
  | .rxNack => .ctl .receive
  | .setRate _ => .rate
  | .addrWriteByte _ => .busAddr
  | .addrReadByte _ => .busAddr
  | .startSent _ => .status
  | .addrAckWrite _ => .status
  | .addrAckRead _ => .status
  | .dataAckWrite _ => .status
  | .dataAckRead _ => .status
  | .dataNackRead _ => .status
  | .phIdle => .phase
  | .phConfig => .phase
  | .phStart => .phase
  | .phAddrW => .phase
  | .phMemH => .phase
  | .phMemL => .phase
  | .phRestart => .phase
  | .phAddrR => .phase
  | .phReadData => .phase
  | .phWriteData => .phase
  | .phStop => .phase
  | .phFailStop => .phase
  | .phBusStop => .phase
  | .hostWrite _ _ => .host
  | .hostRead _ => .host

/-- The bytes of an instruction, from the encoding tables (R101, R104, R109, R111, R113, R120,
R122). -/
def encode (c : Config) : Instr → List Byte
  | .nop => [0x00#8]
  | .configureRate => [0x01#8]
  | .transferWrite => [0x02#8]
  | .transferRead => [0x03#8]
  | .stopBus => [0x04#8]
  | .reservedOp5 => [0x05#8]
  | .reservedOp6 => [0x06#8]
  | .reservedOp7 => [0x07#8]
  | .reservedRsv rsv op => [rsv ++ op]
  | .start => [c.cwStart]
  | .stop => [c.cwStop]
  | .tx b => [c.cwTx, b]
  | .rxAck => [c.cwRxAck]
  | .rxNack => [c.cwRxNack]
  | .setRate d => [d]
  | .addrWriteByte a => [addressByte a 0#1]
  | .addrReadByte a => [addressByte a 1#1]
  | .startSent low => [statusByte c.stStartSent low]
  | .addrAckWrite low => [statusByte c.stAddrAckWrite low]
  | .addrAckRead low => [statusByte c.stAddrAckRead low]
  | .dataAckWrite low => [statusByte c.stDataAckWrite low]
  | .dataAckRead low => [statusByte c.stDataAckRead low]
  | .dataNackRead low => [statusByte c.stDataNackRead low]
  | .phIdle => [Phase.idle.code]
  | .phConfig => [Phase.config.code]
  | .phStart => [Phase.start.code]
  | .phAddrW => [Phase.addrW.code]
  | .phMemH => [Phase.memH.code]
  | .phMemL => [Phase.memL.code]
  | .phRestart => [Phase.restart.code]
  | .phAddrR => [Phase.addrR.code]
  | .phReadData => [Phase.readData.code]
  | .phWriteData => [Phase.writeData.code]
  | .phStop => [Phase.stop.code]
  | .phFailStop => [Phase.failStop.code]
  | .phBusStop => [Phase.busStop.code]
  | .hostWrite off d => d :: offsetBytes off
  | .hostRead off => offsetBytes off

/-! ### The opcode table's words, numbered as the table numbers them -/

/-- `n` bytes of a number, least significant first. -/
def bytesOf : Nat → Nat → List Byte
  | 0, _ => []
  | n + 1, w => BitVec.ofNat 8 w :: bytesOf n (w / 256)

/-- The space an 8-bit word of the table is read in when nothing says which. The table's spaces
overlap (0x02 is TRANSFER_WRITE in CMD and START in PHASE), so this fixes an order: the eight CMD
rows of one byte, the command words, the phase codes, the named statuses, and CMD for the rest
(log entry 6). The machine itself always knows the space and never calls this. -/
def tableSpace (v : Byte) : Space :=
  if v.toNat < 8 then .cmd
  else if v = Config.default.cwStart ∨ v = Config.default.cwStop ∨ v = Config.default.cwTx
      ∨ v = Config.default.cwRxAck then .ctl .transmit
  else if (Phase.ofCode v).isSome then .phase
  else
    match decodeStatus Config.default v with
    | .ok _ => .status
    | .error _ => .cmd

/-- The bytes of an 8-bit table word: TX's operand byte, which the table gives no bits, is zero. -/
def tableBytes (v : Byte) : List Byte :=
  if v = Config.default.cwTx then [v, 0x00#8] else [v]

/-- The instruction the decoder reads from a word numbered as the opcode table numbers it. A HOST
access has 16 bits (read) or 24 (write); every other word has 8. -/
def decodeTableWord (nbits w : Nat) : Option Instr :=
  let r :=
    if nbits = 8 then
      let v := BitVec.ofNat 8 w
      decode Config.default (tableSpace v) (tableBytes v)
    else decode Config.default .host (bytesOf (nbits / 8) w)
  match r with
  | .ok i => some i
  | .error _ => none

end Sys2Proof
end

