-- ==== Sys2Proof/Machine/Operands.lean ====
section
/-! DEFINITION. Every operand form: the bytes a phase sends, the byte count of a read, the masked
status, and what a window offset names. -/

namespace Sys2Proof.Machine

/-- The write variant of the address byte, `SLA` (R104). -/
def State.writeAddr (s : State) : Byte := s.sla

/-- The read variant of the address byte, `SLA + 1` (R104). -/
def State.readAddr (s : State) : Byte := s.sla + 1#8

/-- `n = max(LEN, 1)`: a read of count 0 is a read of one byte (R23, R197). -/
def readCount (len : Byte) : Nat := max len.toNat 1

/-- `ack` of R195: the byte being received is not the last one, `IDX < n - 1`. -/
def State.moreToRead (s : State) : Bool := decide (s.idx.toNat < readCount s.len - 1)

/-- The BUF index of the byte being sent or received (R74: "indexed by the BLOCK using IDX"). -/
def State.bufIndex (s : State) : Nat := s.idx.toNat

/-- The masked status `CtlRead(STATUS) & STATUS_MASK` (R108). -/
def State.maskedStatus (s : State) : Byte := s.ctl.status &&& s.cfg.statusMask

/-- The expected masked status of a received byte (R176). -/
def State.expectedRead (s : State) : Byte :=
  if s.moreToRead then s.cfg.stDataAckRead else s.cfg.stDataNackRead

/-- The controller's mode after the given trace (R112): "set by the direction bit of the last address
byte it sent", the TX that follows a START. Before the first one it is `m`. The mode is ENV's hidden
state (R53), so it is a view of the trace and no rule reads it; the decoder of CTL words takes it. -/
def modeAfter (m : CtlMode) : List TraceEntry → CtlMode
  | .prim .start :: .prim (.tx b) :: rest =>
    modeAfter (if b.getLsbD 0 then .receive else .transmit) rest
  | _ :: rest => modeAfter m rest
  | [] => m

/-- What a window offset names (R20). -/
inductive Location where
  | sla | mah | mal | len | cmd | stat | result | phase | idx
  | buf (i : Nat)
  | unmapped
  deriving DecidableEq, Repr

/-- The window of R20: nine registers, BUF at 0x100, and nothing at 0x009..0x0FF or from 0x200 on
(R72). BUF has `BUF_SIZE` bytes, of which the window shows 256 (R29, R70). -/
def locate (c : Config) (off : Nat) : Location :=
  match off with
  | 0 => .sla
  | 1 => .mah
  | 2 => .mal
  | 3 => .len
  | 4 => .cmd
  | 5 => .stat
  | 6 => .result
  | 7 => .phase
  | 8 => .idx
  | _ => if 0x100 ≤ off ∧ off < 0x200 ∧ off - 0x100 < c.bufSize then .buf (off - 0x100)
         else .unmapped

end Sys2Proof.Machine
end

