-- ==== Sys2Proof/Machine/Ops.lean ====
section
/-! DEFINITION. The shared operations: the data buffer, the lower interface, the ENV draws, the
primitives' ISSUE step, the poll with its completion, the fail path (taking the failure report and
returning from it) and the acceptance of a TRANSFER. Every instruction is one of these with its own
operands. -/

namespace Sys2Proof.Machine

/-! ### The data buffer (R29, R77, R78) -/

/-- Byte `a`, or `none` where no one has written it: "The model gives an unwritten byte no value"
(R78). -/
def Memory.read : Memory → Nat → Option Byte
  | [], _ => none
  | (k, v) :: rest, a => if a = k then some v else Memory.read rest a

/-- Store one byte, keeping the indices strictly rising. -/
def Memory.write : Memory → Nat → Byte → Memory
  | [], a, v => [(a, v)]
  | (k, w) :: rest, a, v =>
    if a < k then (a, v) :: (k, w) :: rest
    else if a = k then (a, v) :: rest
    else (k, w) :: Memory.write rest a v

/-- Every index of the list is above `lo`, and they rise strictly. -/
def Memory.risingFrom : Nat → Memory → Bool
  | _, [] => true
  | lo, (k, _) :: rest => decide (lo ≤ k) && Memory.risingFrom (k + 1) rest

/-- The canonical form: indices strictly rising, each below 256 (R29). An unlisted byte has no
value, so no entry repeats what an unlisted index reads as. -/
def Memory.wf (m : Memory) : Bool :=
  Memory.risingFrom 0 m && m.all fun c => decide (c.1 < 256)

/-- `written[i]` (R36). -/
def State.written (s : State) (i : Nat) : Bool := (s.buf.read i).isSome

/-! ### The fault record (R12, R36) -/

/-- "the model records a fault for the run, the fault is never cleared" (R12). -/
def recordFault (f : Fault) (s : State) : State :=
  { s with faulted := some (s.faulted.getD f) }

/-! ### The lower interface (R11, R50) -/

/-- A byte into a controller register. -/
def Controller.set (c : Controller) : CtlReg → Byte → Controller
  | .rate, v => { c with rate := v }
  | .prescaler, v => { c with prescaler := v.setWidth 2 }
  | .control, v => { c with control := v }
  | .status, v => { c with status := v }
  | .data, v => { c with data := v }

/-- The byte in a controller register. -/
def Controller.get (c : Controller) : CtlReg → Byte
  | .rate => c.rate
  | .prescaler => c.prescaler.setWidth 8
  | .control => c.control
  | .status => c.status
  | .data => c.data

/-- `CtlWrite(r, v)` (R11). -/
def ctlWrite (r : CtlReg) (v : Byte) (s : State) : State :=
  { s with ctl := s.ctl.set r v, accesses := s.accesses ++ [.write r v] }

/-- `CtlRead(r)` (R11): the byte read stays in `ctl`. -/
def ctlRead (r : CtlReg) (s : State) : State :=
  { s with accesses := s.accesses ++ [.read r (s.ctl.get r)] }

/-- The address of a controller register (`CTRL_BASE`, R8). -/
def ctlAddr (c : Config) : CtlReg → Nat
  | .rate => c.ctrlBase.rate
  | .prescaler => c.ctrlBase.prescaler
  | .control => c.ctrlBase.control
  | .status => c.ctrlBase.status
  | .data => c.ctrlBase.data

/-! ### ENV draws (R52) -/

/-- The draw no input gives: free values, under no law (log entry 3). -/
def freeDraw (n : Nat) : EnvDraw where
  control := Config.freeControl n
  status  := Config.freeStatus n
  data    := Config.freeData n

/-- What ENV answers at the next poll. -/
def State.nextDraw (s : State) : EnvDraw :=
  match s.env with
  | d :: _ => d
  | [] => freeDraw s.draws

/-- ENV shows its answer in the controller registers, and the draw is used up. -/
def showDraw (d : EnvDraw) (s : State) : State :=
  { s with
    ctl := { s.ctl with control := d.control, status := d.status, data := d.data }
    env := s.env.tail
    draws := s.draws + 1 }

/-- The draw has the completion flag set: `c[CTL_INT] = 1` (R145). -/
def EnvDraw.completes (c : Config) (d : EnvDraw) : Bool := d.control.getLsbD c.ctlInt

/-! ### The primitives' ISSUE step (R141, R146 to R150) -/

/-- START, TX, RX_ACK and RX_NACK wait for the completion flag; SET_RATE and STOP do not (R142). -/
def Primitive.waits : Primitive → Bool
  | .setRate _ => false
  | .start => true
  | .stop => false
  | .tx _ => true
  | .rxAck => true
  | .rxNack => true

/-- The primitive's writes to ENV, in the order its rule lists them. -/
def primitiveWrites (p : Primitive) (s : State) : State :=
  match p with
  | .setRate d =>
    match s.cfg.ratePrescaler with
    | some q => ctlWrite .prescaler (q.setWidth 8) (ctlWrite .rate d s)
    | none => ctlWrite .rate d s
  | .start => ctlWrite .control s.cfg.cwStart s
  | .stop => ctlWrite .control s.cfg.cwStop s
  | .tx b => ctlWrite .control s.cfg.cwTx (ctlWrite .data b s)
  | .rxAck => ctlWrite .control s.cfg.cwRxAck s
  | .rxNack => ctlWrite .control s.cfg.cwRxNack s

/-- `trace += p` (R143). -/
def emit (p : Primitive) (s : State) : State := { s with trace := s.trace ++ [.prim p] }

/-- `sub <- WAIT; polls <- 0` (R142). -/
def enterWait (s : State) : State := { s with sub := .wait, polls := 0 }

/-- The primitive's writes and its trace entry. -/
def issuePrimitive (p : Primitive) (s : State) : State := emit p (primitiveWrites p s)

/-! ### Moving on, and the fail path (R211, R220, R221) -/

/-- `fsm <- p`, with `sub <- ISSUE`; PHASE follows fsm while BUSY (R27). -/
def enterPhase (p : Phase) (s : State) : State := { s with fsm := p, phase := p, sub := .issue }

/-- The return to IDLE with the given PHASE: BUSY becomes 0. -/
def toIdle (p : Phase) (s : State) : State := { s with fsm := .idle, phase := p, sub := .issue }

/-- Entry into the fail path, `Fail(code)` from phase `p` with `pend <- q` (R220, R282). -/
def failPath (code : Byte) (q : Pend) (p : Phase) (s : State) : State :=
  let s1 := { s with result := code, phase := p, pend := q, sub := .issue }
  if s.cfg.stopOnFail then { s1 with fsm := .failStop }
  else { s1 with outcome := q.outcome, fsm := .idle }

/-- The return from the fail path (R221): the outcome reported, BUSY becomes 0, PHASE keeps P. -/
def leaveFailPath (s : State) : State :=
  { s with outcome := s.pend.outcome, fsm := .idle, sub := .issue }

/-- The validator (R175): equality with the expected code is the only success; any other masked
status aborts in phase `p`. -/
def validate (p : Phase) (expected : Byte) (onSuccess : State → State) (s : State) : State :=
  if s.maskedStatus = expected then onSuccess s else failPath s.maskedStatus .failed p s

/-! ### Completion actions (R171, R172, R190, R195, R213 to R216) -/

/-- The successor of MEM_L (R215). -/
def afterMemL (s : State) : State :=
  match s.dir with
  | .read => enterPhase .restart s
  | .write => if s.len = 0#8 then enterPhase .stop s else enterPhase .writeData s

/-- `IDX <- IDX + 1` (R28). -/
def advanceIdx (s : State) : State := { s with idx := s.idx + 1#8 }

/-- After a byte sent and acknowledged (R190). -/
def afterSent (s : State) : State :=
  let s1 := advanceIdx s
  if s1.idx.toNat < s1.len.toNat then enterPhase .writeData s1 else enterPhase .stop s1

/-- After a byte received with the expected status (R195). -/
def afterReceived (s : State) : State :=
  let s1 := advanceIdx s
  if s1.idx.toNat < readCount s1.len then enterPhase .readData s1 else enterPhase .stop s1

/-- `BUF[IDX] <- b; written[IDX] <- true` (R195). -/
def storeReceived (s : State) : State := { s with buf := s.buf.write s.bufIndex s.ctl.data }

/-- The completion of a waiting phase, once the poll has read the flag as 1: the primitive's
completion reads, then the phase's completion action. The other phases never wait. -/
def completePhase (p : Phase) (s : State) : State :=
  match p with
  | .start => enterPhase .addrW s
  | .addrW => validate .addrW s.cfg.stAddrAckWrite (enterPhase .memH) (ctlRead .status s)
  | .memH => validate .memH s.cfg.stDataAckWrite (enterPhase .memL) (ctlRead .status s)
  | .memL => validate .memL s.cfg.stDataAckWrite afterMemL (ctlRead .status s)
  | .restart => enterPhase .addrR s
  | .addrR => validate .addrR s.cfg.stAddrAckRead (enterPhase .readData) (ctlRead .status s)
  | .readData =>
    validate .readData s.expectedRead afterReceived
      (storeReceived (ctlRead .status (ctlRead .data s)))
  | .writeData => validate .writeData s.cfg.stDataAckWrite afterSent (ctlRead .status s)
  | .idle => { s with sub := .issue }
  | .config => { s with sub := .issue }
  | .stop => { s with sub := .issue }
  | .failStop => { s with sub := .issue }
  | .busStop => { s with sub := .issue }

/-- A poll that reads the completion flag as 0 (R145): counted, and the n-th ends the WAIT in
TIMED_OUT when `POLL_LIMIT = some n`. -/
def missedPoll (p : Phase) (s : State) : State :=
  let s1 := { s with polls := s.polls + 1 }
  if s1.cfg.pollLimit = some s1.polls then failPath s1.cfg.timeoutCode .timedOut p s1 else s1

/-- One poll of phase `p` in which ENV answers `d` (R145). -/
def pollWith (d : EnvDraw) (p : Phase) (s : State) : State :=
  let s1 := ctlRead .control (showDraw d s)
  if d.completes s.cfg then completePhase p s1 else missedPoll p s1

/-- One WAIT step of phase `p` (R145). -/
def poll (p : Phase) (s : State) : State := pollWith s.nextDraw p s

/-- The phases that issue a primitive that does not wait: CONFIG issues SET_RATE (R141), and STOP,
FAIL_STOP and BUS_STOP issue STOP (R147). Only there does its ISSUE step run a completion action. The
spec gives no step of SET_RATE or STOP in another phase; that such a step only issues the primitive is
the model's choice (log entry 11, DESIGN CHOICE), and no turn of the BLOCK takes one. -/
def Primitive.endedBy (q : Primitive) (p : Phase) : Bool :=
  match q with
  | .setRate _ => decide (p = .config)
  | .stop => decide (p ∈ [Phase.stop, .failStop, .busStop])
  | .start => false
  | .tx _ => false
  | .rxAck => false
  | .rxNack => false

/-- The completion action of a phase whose primitive does not wait, run in its ISSUE step (R217,
R221, R244, R248). A phase whose primitive waits has none here. -/
def finishPhase (p : Phase) (s : State) : State :=
  match p with
  | .config => toIdle .idle { s with rateCfg := true }
  | .stop => toIdle .idle { s with outcome := .complete }
  | .failStop => leaveFailPath s
  | .busStop => toIdle .idle s
  | .idle => s
  | .start => s
  | .addrW => s
  | .memH => s
  | .memL => s
  | .restart => s
  | .addrR => s
  | .readData => s
  | .writeData => s

/-- One BLOCK step of phase `p` whose primitive is `q` (R142): the ISSUE step, with the completion
action of `p` where `q` does not wait and `p` issues it, or a poll of the outstanding primitive. -/
def runPhase (p : Phase) (q : Primitive) (s : State) : State :=
  match s.sub with
  | .issue =>
    let s1 := issuePrimitive q s
    if q.waits then enterWait s1 else if q.endedBy p then finishPhase p s1 else s1
  | .wait => poll p s

/-! ### Commands (R240, R241) -/

/-- A CMD write is decoded only while BUSY = 0; otherwise it is rejected (R240, R251). -/
def whenIdle (accepted : State → State) (s : State) : State :=
  if s.busy then reject s else accepted s

/-- `fsm <- p; sub <- ISSUE` for a command without a transfer: BUSY becomes 1 (R243, R247). -/
def acceptCommand (p : Phase) (s : State) : State := enterPhase p (clearRej s)

/-- Acceptance of a TRANSFER (R241). With RATE_CFG = 0 it runs, "but the model faults at its
acceptance" (R253). -/
def acceptTransfer (d : Direction) (s : State) : State :=
  let s1 := enterPhase .start
    { clearRej s with dir := d, result := 0x00#8, outcome := .none, idx := 0x00#8, polls := 0 }
  if s.rateCfg then s1 else recordFault .rateNotConfigured s1

/-- A TRANSFER while BUSY = 0: rejected when SLA[0] = 1 (R250), otherwise accepted. -/
def startTransfer (d : Direction) (s : State) : State :=
  if s.sla.getLsbD 0 then reject s else acceptTransfer d s

/-! ### Reset (R310) -/

/-- The reset input: every piece of BLOCK state to its value in R60, no primitive issued, the trace
kept and extended by an entry of its own (R143). ENV's answers to come are untouched (R311); the
controller registers are reset only where the platform resets the controller. -/
def applyReset (s : State) : State :=
  { State.reset with
    cfg := s.cfg
    ctl := if s.cfg.controllerReset then Controller.powerOn else s.ctl
    faulted := s.faulted
    trace := s.trace ++ [.reset]
    accesses := s.accesses
    inputs := s.inputs
    env := s.env
    draws := s.draws
    hostValue := s.hostValue }

end Sys2Proof.Machine
end

