-- ==== Sys2Proof/Machine/Commands.lean ====
section
/-! DEFINITION. The meanings of space CMD: a HOST write of the row's byte to CMD (R240), in its
order: BUSY, then reserved, then NOP, then the SLA parity, then acceptance. -/

namespace Sys2Proof.Machine

/-- What a meaning answers. -/
abbrev Result := Host.Outcome State Fault Refusal

/-- NOP (R242). -/
def execNop (s : State) : Result := .next (whenIdle clearRej s)

/-- CONFIGURE_RATE (R243). -/
def execConfigureRate (s : State) : Result := .next (whenIdle (acceptCommand .config) s)

/-- TRANSFER_WRITE (R245). -/
def execTransferWrite (s : State) : Result := .next (whenIdle (startTransfer .write) s)

/-- TRANSFER_READ (R246). -/
def execTransferRead (s : State) : Result := .next (whenIdle (startTransfer .read) s)

/-- STOP_BUS (R247). -/
def execStopBus (s : State) : Result := .next (whenIdle (acceptCommand .busStop) s)

/-- CMD 0x05, reserved (R249). -/
def execReservedOp5 (s : State) : Result := .next (whenIdle reject s)

/-- CMD 0x06, reserved (R249). -/
def execReservedOp6 (s : State) : Result := .next (whenIdle reject s)

/-- CMD 0x07, reserved (R249). -/
def execReservedOp7 (s : State) : Result := .next (whenIdle reject s)

/-- CMD with bits 7:3 not zero, reserved even where OP is valid (R249). -/
def execReservedRsv (_rsv : BitVec 5) (_op : BitVec 3) (s : State) : Result :=
  .next (whenIdle reject s)

/-- A HOST write of byte `v` to CMD runs the row `v` is (R240). -/
def commandWrite (v : Byte) (s : State) : Result :=
  if v = 0x00#8 then execNop s
  else if v = 0x01#8 then execConfigureRate s
  else if v = 0x02#8 then execTransferWrite s
  else if v = 0x03#8 then execTransferRead s
  else if v = 0x04#8 then execStopBus s
  else if v = 0x05#8 then execReservedOp5 s
  else if v = 0x06#8 then execReservedOp6 s
  else if v = 0x07#8 then execReservedOp7 s
  else execReservedRsv (v.extractLsb' 3 5) (v.extractLsb' 0 3) s

end Sys2Proof.Machine
end

