-- ==== Sys2Proof/Machine/Address.lean ====
section
/-! DEFINITION. The meanings of space BUS_ADDR: one step of the address phase with the row's address
byte (R170): transmit it, then check the status of the direction. The phases send SLA and SLA + 1
(R171, R172); that a row with another address sends its own is the model's choice (log entry 13, DESIGN
CHOICE). -/

namespace Sys2Proof.Machine

/-- The address byte of `a` with direction write: a step of phase ADDR_W that sends it (R171). -/
def execAddrWriteByte (a : BitVec 7) (s : State) : Result :=
  .next (runPhase .addrW (.tx (addressByte a 0#1)) s)

/-- The address byte of `a` with direction read: a step of phase ADDR_R that sends it (R172). -/
def execAddrReadByte (a : BitVec 7) (s : State) : Result :=
  .next (runPhase .addrR (.tx (addressByte a 1#1)) s)

end Sys2Proof.Machine
end

