-- ==== Sys2Proof/Machine/HostAccess.lean ====
section
/-! DEFINITION. The meanings of space HOST: one byte access at a window offset (R20, R70 to R78,
R254 to R256). -/

namespace Sys2Proof.Machine

/-- A value returned to HOST. -/
def returnValue (v : Byte) (s : State) : State := { s with hostValue := v }

/-- A descriptor register is written while BUSY = 0 (R255); while BUSY = 1 the write is ignored and
the model faults (R256). -/
def descriptorWrite (stored : State) (s : State) : State :=
  if s.busy then recordFault .descriptorWhileBusy s else stored

/-- `BUF[i] <- v; written[i] <- true` while BUSY = 0 (R77); while BUSY = 1 the write is ignored and
the model faults (R76). -/
def bufWrite (i : Nat) (v : Byte) (s : State) : State :=
  if s.busy then recordFault .bufWhileBusy s else { s with buf := s.buf.write i v }

/-- The byte of BUF while BUSY = 0, if it was written (R77); otherwise the model faults (R76, R77). -/
def bufRead (i : Nat) (s : State) : State :=
  if s.busy then recordFault .bufWhileBusy s
  else
    match s.buf.read i with
    | some v => returnValue v s
    | none => recordFault .bufReadUnwritten s

/-- HOST_WRITE (R73): CMD runs the command; STAT, RESULT, PHASE and IDX ignore the write. -/
def execHostWrite (off : Nat) (data : Byte) (s : State) : Result :=
  match locate s.cfg off with
  | .cmd => commandWrite data s
  | .sla => .next (descriptorWrite { s with sla := data } s)
  | .mah => .next (descriptorWrite { s with mah := data } s)
  | .mal => .next (descriptorWrite { s with mal := data } s)
  | .len => .next (descriptorWrite { s with len := data } s)
  | .stat => .next s
  | .result => .next s
  | .phase => .next s
  | .idx => .next s
  | .buf i => .next (bufWrite i data s)
  | .unmapped => .next (recordFault .unmappedOffset s)

/-- HOST_READ (R254): the register's value, CMD as 0x00; no side effect on the BLOCK (R73). -/
def execHostRead (off : Nat) (s : State) : Result :=
  match locate s.cfg off with
  | .sla => .next (returnValue s.sla s)
  | .mah => .next (returnValue s.mah s)
  | .mal => .next (returnValue s.mal s)
  | .len => .next (returnValue s.len s)
  | .cmd => .next (returnValue 0x00#8 s)
  | .stat => .next (returnValue s.stat s)
  | .result => .next (returnValue s.result s)
  | .phase => .next (returnValue s.phase.code s)
  | .idx => .next (returnValue s.idx s)
  | .buf i => .next (bufRead i s)
  | .unmapped => .next (recordFault .unmappedOffset s)

end Sys2Proof.Machine
end

