-- ==== Sys2Proof/Machine/Phases.lean ====
section
/-! DEFINITION. The meanings of space PHASE: one BLOCK step in the phase (R142), ISSUE or WAIT as
`sub` says. -/

namespace Sys2Proof.Machine

/-- IDLE (R212): "no BLOCK step is enabled in IDLE"; the BLOCK waits and nothing changes. -/
def execPhIdle (s : State) : Result := .next s

/-- CONFIG (R244): SET_RATE with the parameter `RATE_DIVISOR`. -/
def execPhConfig (s : State) : Result :=
  .next (runPhase .config (.setRate s.cfg.rateDivisor) s)

/-- START (R213). -/
def execPhStart (s : State) : Result := .next (runPhase .start .start s)

/-- ADDR_W (R171). -/
def execPhAddrW (s : State) : Result := .next (runPhase .addrW (.tx s.writeAddr) s)

/-- MEM_H (R214). -/
def execPhMemH (s : State) : Result := .next (runPhase .memH (.tx s.mah) s)

/-- MEM_L (R215). -/
def execPhMemL (s : State) : Result := .next (runPhase .memL (.tx s.mal) s)

/-- RESTART (R216). -/
def execPhRestart (s : State) : Result := .next (runPhase .restart .start s)

/-- ADDR_R (R172). -/
def execPhAddrR (s : State) : Result := .next (runPhase .addrR (.tx s.readAddr) s)

/-- READ_DATA (R195): RX_ACK for every byte but the last, RX_NACK for the last. -/
def execPhReadData (s : State) : Result :=
  .next (runPhase .readData (if s.moreToRead then .rxAck else .rxNack) s)

/-- WRITE_DATA (R190): a byte no one wrote is not sent; the model faults. -/
def execPhWriteData (s : State) : Result :=
  match s.sub, s.buf.read s.bufIndex with
  | .issue, none => .next (recordFault .txUnwritten s)
  | .issue, some b => .next (runPhase .writeData (.tx b) s)
  | .wait, _ => .next (poll .writeData s)

/-- STOP (R217). -/
def execPhStop (s : State) : Result := .next (runPhase .stop .stop s)

/-- FAIL_STOP (R221). -/
def execPhFailStop (s : State) : Result := .next (runPhase .failStop .stop s)

/-- BUS_STOP (R248). -/
def execPhBusStop (s : State) : Result := .next (runPhase .busStop .stop s)

end Sys2Proof.Machine
end

