-- ==== Sys2Proof/Machine/Primitives.lean ====
section
/-! DEFINITION. The meanings of spaces CTL and RATE: one step of a primitive (R140 to R151). In
ISSUE the primitive is issued; one that does not wait then runs the completion action of `fsm`, if
that is a phase that issues it (R142; log entry 11). In WAIT the outstanding primitive, that of phase `fsm`, is polled: "The
BLOCK does not issue the next primitive until the completion flag of the current one has read 1"
(R87). -/

namespace Sys2Proof.Machine

/-- START (R146). -/
def execStart (s : State) : Result := .next (runPhase s.fsm .start s)

/-- STOP (R147). -/
def execStop (s : State) : Result := .next (runPhase s.fsm .stop s)

/-- TX(b) (R148). The issuing phase supplies the byte; that a TX row with another byte sends its own is
the model's choice (log entry 11, DESIGN CHOICE), and no turn of the BLOCK sends one. -/
def execTx (b : Byte) (s : State) : Result := .next (runPhase s.fsm (.tx b) s)

/-- RX_ACK (R149). -/
def execRxAck (s : State) : Result := .next (runPhase s.fsm .rxAck s)

/-- RX_NACK (R150). -/
def execRxNack (s : State) : Result := .next (runPhase s.fsm .rxNack s)

/-- SET_RATE (R141), with the divisor byte of its word (R113). R141 has no operand and writes
`RATE_DIVISOR`; that a row whose byte is another one writes that byte to RATE and to the trace, and in
CONFIG still sets RATE_CFG, is the model's choice (log entry 11, DESIGN CHOICE). The turn of phase
CONFIG issues SET_RATE with `RATE_DIVISOR` only. -/
def execSetRate (d : Byte) (s : State) : Result := .next (runPhase s.fsm (.setRate d) s)

end Sys2Proof.Machine
end

