-- ==== Sys2Proof/Machine/Status.lean ====
section
/-! DEFINITION. The meanings of space STATUS: the controller answers with this status byte (R108).
Where the BLOCK waits, the poll reads the completion flag as 1 and the phase completes with that
status (R175 to R179); where it does not, no rule reads STATUS, and the byte stays in the register. -/

namespace Sys2Proof.Machine

/-- The next draw, with the completion flag set and STATUS showing `v`. -/
def State.drawWithStatus (v : Byte) (s : State) : EnvDraw :=
  { s.nextDraw with control := s.nextDraw.control ||| bit s.cfg.ctlInt, status := v }

/-- ENV answers with status byte `v`. -/
def answerStatus (v : Byte) (s : State) : State :=
  match s.sub with
  | .wait => pollWith (s.drawWithStatus v) s.fsm s
  | .issue => { s with ctl := { s.ctl with status := v } }

/-- START_SENT: "a named code that no rule compares" (R179). -/
def execStartSent (low : BitVec 3) (s : State) : Result :=
  .next (answerStatus (statusByte s.cfg.stStartSent low) s)

/-- ADDR_ACK_WRITE, expected by ADDR_W (R171). -/
def execAddrAckWrite (low : BitVec 3) (s : State) : Result :=
  .next (answerStatus (statusByte s.cfg.stAddrAckWrite low) s)

/-- ADDR_ACK_READ, expected by ADDR_R (R172). -/
def execAddrAckRead (low : BitVec 3) (s : State) : Result :=
  .next (answerStatus (statusByte s.cfg.stAddrAckRead low) s)

/-- DATA_ACK_WRITE, expected by MEM_H, MEM_L and WRITE_DATA (R191). -/
def execDataAckWrite (low : BitVec 3) (s : State) : Result :=
  .next (answerStatus (statusByte s.cfg.stDataAckWrite low) s)

/-- DATA_ACK_READ, expected by READ_DATA for every byte but the last (R195). -/
def execDataAckRead (low : BitVec 3) (s : State) : Result :=
  .next (answerStatus (statusByte s.cfg.stDataAckRead low) s)

/-- DATA_NACK_READ, expected by READ_DATA for the last byte (R195). -/
def execDataNackRead (low : BitVec 3) (s : State) : Result :=
  .next (answerStatus (statusByte s.cfg.stDataNackRead low) s)

end Sys2Proof.Machine
end

