-- ==== Sys2Proof/Machine/Dispatch.lean ====
section
/-! DEFINITION. exec: one arm per row of spec/opcode_table.json. -/

namespace Sys2Proof.Machine

def exec (i : Instr) (s : State) : Host.Outcome State Fault Refusal :=
  match i with
  | .nop => Sys2Proof.Machine.execNop s
  | .configureRate => Sys2Proof.Machine.execConfigureRate s
  | .transferWrite => Sys2Proof.Machine.execTransferWrite s
  | .transferRead => Sys2Proof.Machine.execTransferRead s
  | .stopBus => Sys2Proof.Machine.execStopBus s
  | .reservedOp5 => Sys2Proof.Machine.execReservedOp5 s
  | .reservedOp6 => Sys2Proof.Machine.execReservedOp6 s
  | .reservedOp7 => Sys2Proof.Machine.execReservedOp7 s
  | .reservedRsv rsv op => Sys2Proof.Machine.execReservedRsv rsv op s
  | .start => Sys2Proof.Machine.execStart s
  | .stop => Sys2Proof.Machine.execStop s
  | .tx b => Sys2Proof.Machine.execTx b s
  | .rxAck => Sys2Proof.Machine.execRxAck s
  | .rxNack => Sys2Proof.Machine.execRxNack s
  | .setRate d => Sys2Proof.Machine.execSetRate d s
  | .addrWriteByte a => Sys2Proof.Machine.execAddrWriteByte a s
  | .addrReadByte a => Sys2Proof.Machine.execAddrReadByte a s
  | .startSent low => Sys2Proof.Machine.execStartSent low s
  | .addrAckWrite low => Sys2Proof.Machine.execAddrAckWrite low s
  | .addrAckRead low => Sys2Proof.Machine.execAddrAckRead low s
  | .dataAckWrite low => Sys2Proof.Machine.execDataAckWrite low s
  | .dataAckRead low => Sys2Proof.Machine.execDataAckRead low s
  | .dataNackRead low => Sys2Proof.Machine.execDataNackRead low s
  | .phIdle => Sys2Proof.Machine.execPhIdle s
  | .phConfig => Sys2Proof.Machine.execPhConfig s
  | .phStart => Sys2Proof.Machine.execPhStart s
  | .phAddrW => Sys2Proof.Machine.execPhAddrW s
  | .phMemH => Sys2Proof.Machine.execPhMemH s
  | .phMemL => Sys2Proof.Machine.execPhMemL s
  | .phRestart => Sys2Proof.Machine.execPhRestart s
  | .phAddrR => Sys2Proof.Machine.execPhAddrR s
  | .phReadData => Sys2Proof.Machine.execPhReadData s
  | .phWriteData => Sys2Proof.Machine.execPhWriteData s
  | .phStop => Sys2Proof.Machine.execPhStop s
  | .phFailStop => Sys2Proof.Machine.execPhFailStop s
  | .phBusStop => Sys2Proof.Machine.execPhBusStop s
  | .hostWrite off data => Sys2Proof.Machine.execHostWrite off data s
  | .hostRead off => Sys2Proof.Machine.execHostRead off s

end Sys2Proof.Machine
end

