-- ==== Sys2Proof/Machine/Turn.lean ====
section
/-! DEFINITION. What moves in a step: a turn of the BLOCK, a HOST access, or the reset input; and how
an instruction of the opcode table is put where the next step runs it. -/

namespace Sys2Proof.Machine

/-- A turn of the BLOCK: `fsm` is its program counter (R30), so it runs the row of PHASE that the
code of `fsm` decodes to. -/
def blockTurn (s : State) : Result :=
  match decode s.cfg .phase [s.fsm.code] with
  | .ok i => exec i s
  | .error _ => .refused .badPhaseCode

/-- A HOST access as R122 encodes it. -/
def hostTurn (word : List Byte) (s : State) : Result :=
  match decode s.cfg .host word with
  | .ok i => exec i s
  | .error _ => .refused .badHostWord

/-- The first address above the bytes an access covers: its width in whole bytes, and never less than
the byte at its address (log entry 16). -/
def RawAccess.limit (a : RawAccess) : Nat := a.addr + max 1 ((a.bits + 7) / 8)

/-- A HOST access by address and width (R70 to R72). One whose bytes all lie below `HOST_BASE` is not
the BLOCK's: nothing changes. Any width but 8 bits "to the window" makes the model fault (R71), also
where the access begins below `HOST_BASE` and reaches into the window, and the width is checked before
the offset (log entry 16, DESIGN CHOICE: R71 says only "to the window"). -/
def rawTurn (a : RawAccess) (s : State) : Result :=
  if a.limit ≤ s.cfg.hostBase then .next s
  else if a.bits ≠ 8 then .next (recordFault .accessWidth s)
  else
    match a.kind with
    | .write => exec (.hostWrite (a.addr - s.cfg.hostBase) a.data) s
    | .read => exec (.hostRead (a.addr - s.cfg.hostBase)) s

/-- The event at the head of the inputs is used up. -/
def popInput (s : State) : State := { s with inputs := s.inputs.tail }

/-- The next event of the total order of R85. When no input is left the BLOCK runs on its own. -/
def turn (s : State) : Result :=
  match s.inputs with
  | [] => blockTurn s
  | .block :: _ => blockTurn (popInput s)
  | .host w :: _ => hostTurn w (popInput s)
  | .raw a :: _ => rawTurn a (popInput s)
  | .reset :: _ => .next (applyReset (popInput s))

/-! ### Placing an instruction (log entry 7) -/

/-- The BLOCK about to take the ISSUE step of phase `p`. PHASE follows fsm except in FAIL_STOP, where
it keeps the failing phase (R27). -/
def atPhase (p : Phase) (s : State) : State :=
  { s with fsm := p, phase := if p = .failStop then s.phase else p, sub := .issue }

/-- The BLOCK waiting in phase `p`, with ENV about to complete the primitive with status `v`. -/
def atAnswer (p : Phase) (v : Byte) (s : State) : State :=
  { atPhase p s with
    sub := .wait
    env := { control := bit s.cfg.ctlInt, status := v, data := 0x00#8 } :: s.env }

/-- The state, but for the event that triggers it, in which the machine runs instruction `i` next. A
HOST access and a CMD byte need nothing; a phase needs `fsm`; a primitive, an address byte or a status
needs the phase that issues, sends or reads it. -/
def prepare (i : Instr) (s : State) : State :=
  match i with
  | .nop => s
  | .configureRate => s
  | .transferWrite => s
  | .transferRead => s
  | .stopBus => s
  | .reservedOp5 => s
  | .reservedOp6 => s
  | .reservedOp7 => s
  | .reservedRsv _ _ => s
  | .hostWrite _ _ => s
  | .hostRead _ => s
  | .start => atPhase .start s
  | .stop => atPhase .busStop s
  | .tx b => atPhase .addrW { s with sla := b }
  | .rxAck => atPhase .readData { s with len := 2#8, idx := 0#8 }
  | .rxNack => atPhase .readData { s with len := 1#8, idx := 0#8 }
  | .setRate d => atPhase .config { s with cfg := { s.cfg with rateDivisor := d } }
  | .addrWriteByte a => atPhase .addrW { s with sla := addressByte a 0#1 }
  | .addrReadByte a => atPhase .addrR { s with sla := addressByte a 0#1 }
  | .startSent low => atAnswer .start (statusByte s.cfg.stStartSent low) s
  | .addrAckWrite low => atAnswer .addrW (statusByte s.cfg.stAddrAckWrite low) s
  | .addrAckRead low => atAnswer .addrR (statusByte s.cfg.stAddrAckRead low) s
  | .dataAckWrite low => atAnswer .memH (statusByte s.cfg.stDataAckWrite low) s
  | .dataAckRead low =>
    atAnswer .readData (statusByte s.cfg.stDataAckRead low) { s with len := 2#8, idx := 0#8 }
  | .dataNackRead low =>
    atAnswer .readData (statusByte s.cfg.stDataNackRead low) { s with len := 1#8, idx := 0#8 }
  | .phIdle => atPhase .idle s
  | .phConfig => atPhase .config s
  | .phStart => atPhase .start s
  | .phAddrW => atPhase .addrW s
  | .phMemH => atPhase .memH s
  | .phMemL => atPhase .memL s
  | .phRestart => atPhase .restart s
  | .phAddrR => atPhase .addrR s
  | .phReadData => atPhase .readData s
  | .phWriteData =>
    atPhase .writeData { s with len := 1#8, idx := 0#8, buf := s.buf.write 0 0x00#8 }
  | .phStop => atPhase .stop s
  | .phFailStop => atPhase .failStop s
  | .phBusStop => atPhase .busStop s

/-- The event that makes the prepared machine run `i`: HOST's access for CMD and HOST words, the
BLOCK's turn for the rest. -/
def trigger (c : Config) (i : Instr) : Input :=
  match spaceOf i with
  | .host => .host (encode c i)
  | .cmd => .host (encode c i ++ offsetBytes 4)
  | .ctl _ => .block
  | .rate => .block
  | .busAddr => .block
  | .status => .block
  | .phase => .block

/-- `s` with instruction `i` where the next step runs it. -/
def place (i : Instr) (s : State) : State :=
  { prepare i s with inputs := trigger s.cfg i :: s.inputs }

end Sys2Proof.Machine
end

