-- ==== Sys2Proof/Machine/Step.lean ====
section
/-! DEFINITION. One step of the machine: a configuration that breaks R9 is refused; a recorded fault
is answered, since it "is never cleared, and a faulted state is never a final state" (R12);
otherwise the next event of the total order of R85 happens. -/

namespace Sys2Proof.Machine

def step (s : State) : Host.Outcome State Fault Refusal :=
  if s.cfg.wf then
    match s.faulted with
    | some f => .fault f
    | none => turn s
  else .refused .badConfig

/-- `s` with the table word `w` where the next step runs it (log entry 7). Bytes that decode to no
instruction are put where HOST's next access is read, so that the step refuses them. -/
def State.withFetchWord (s : State) (nbits w : Nat) : State :=
  match decodeTableWord nbits w with
  | some i => place i s
  | none => { s with inputs := .host (bytesOf (nbits / 8) w) :: s.inputs }

end Sys2Proof.Machine
end

