-- ==== Sys2Proof/Safety.lean ====
section
/-! DEFINITION. What counts as a safe run, and the invariant of the machine: what the rules promise of
every state a run reaches. -/

namespace Sys2Proof.Machine

/-- A state a run may end in: the BLOCK is idle and no fault is recorded, since "a faulted state is
never a final state" (R12). -/
def State.final (s : State) : Bool := !s.busy && s.faulted.isNone

/-- A run of `k` steps that meets no fault and no refusal. -/
def SafeRun (k : Nat) (s t : State) : Prop := Host.Core.run Sys2Proof.core k s = .next t

/-- The phases whose primitive waits for ENV (R142, R272). -/
def waitingPhases : List Phase :=
  [.start, .addrW, .memH, .memL, .restart, .addrR, .readData, .writeData]

/-- The phases of a transaction that has not failed (R210). -/
def transactionPhases : List Phase := waitingPhases ++ [.stop]

/-- The phases before the data phase: IDX is 0 there (R28). -/
def addressPhases : List Phase := [.start, .addrW, .memH, .memL, .restart, .addrR]

/-- What every step keeps. Each field cites the rule whose promise it is. -/
structure State.Inv (s : State) : Prop where
  /-- BUF keeps its canonical form (R29). -/
  buf : s.buf.wf = true
  /-- "While BUSY = 1 and `fsm` is not FAIL_STOP it equals the sequencer state" (R27). -/
  phaseFollows : s.fsm ≠ .idle → s.fsm ≠ .failStop → s.phase = s.fsm
  /-- "PHASE never reads 0x0B" (R27). -/
  phaseNotFailStop : s.phase ≠ .failStop
  /-- In FAIL_STOP, PHASE is the phase that failed: one that waits (R220, R272). -/
  failingPhase : s.fsm = .failStop → s.phase ∈ waitingPhases
  /-- Only a waiting primitive has a WAIT (R142). -/
  waitOnly : s.sub = .wait → s.fsm ∈ waitingPhases
  /-- SLA[0] = 0 in a transaction (R105, R250). -/
  evenSla : s.fsm ∈ transactionPhases → s.sla.getLsbD 0 = false
  /-- IDX is 0 before the data phase (R28). -/
  idxZero : s.fsm ∈ addressPhases → s.idx = 0#8
  /-- RESTART, ADDR_R and READ_DATA run only in a read (R216, R195). -/
  readPhases : s.fsm ∈ [Phase.restart, .addrR, .readData] → s.dir = .read
  /-- READ_DATA is "entered only with `dir = READ` and `IDX < n`" (R195). -/
  readIdx : s.fsm = .readData → s.idx.toNat < readCount s.len
  /-- WRITE_DATA is "entered only with `dir = WRITE`, `LEN > 0` and `IDX < LEN`" (R190). -/
  writeIdx : s.fsm = .writeData → s.dir = .write ∧ s.idx.toNat < s.len.toNat
  /-- IDX when the transaction is about to end COMPLETE: LEN, or max(LEN, 1) for a read (R28). -/
  stopIdx : s.fsm = .stop →
    s.idx.toNat = match s.dir with | .write => s.len.toNat | .read => readCount s.len
  /-- "RESULT stays 0x00 while every validation succeeds" (R178). -/
  resultZero : s.fsm ∈ transactionPhases → s.result = 0x00#8
  /-- OUTCOME is NONE while a transfer is in progress (R25). -/
  outcomeNone : s.fsm ∈ transactionPhases ∨ s.fsm = .failStop → s.outcome = .none
  /-- "0x00 after COMPLETE" (R26). -/
  resultComplete : s.outcome = .complete → s.result = 0x00#8
  /-- "the masked status code observed at the failing phase after FAILED" (R26). -/
  resultFailed : s.outcome = .failed ∨ (s.fsm = .failStop ∧ s.pend = .failed) →
    s.result &&& s.cfg.statusMask = s.result
  /-- "`TIMEOUT_CODE` after TIMED_OUT" (R26). -/
  resultTimedOut : s.outcome = .timedOut ∨ (s.fsm = .failStop ∧ s.pend = .timedOut) →
    s.result = s.cfg.timeoutCode
  /-- "TIMED_OUT exists only when `POLL_LIMIT = some n`" (R25). -/
  timedOutBounded : s.outcome = .timedOut ∨ s.pend = .timedOut → s.cfg.pollLimit ≠ none
  /-- A WAIT has made fewer polls than the limit (R145). -/
  pollsBounded : s.sub = .wait → ∀ n, s.cfg.pollLimit = some n → s.polls < n

end Sys2Proof.Machine
end

