-- ==== Sys2Proof/Certificates/Slice0/Obligations.lean ====
section
/-! DEFINITION. The statements for the provers. The helpers before them say, in the rules' own terms
and without the machine's operations, what state a step leaves. -/

namespace Sys2Proof.Machine

/-! ### What a step leaves, in the rules' terms -/

/-- The BLOCK has moved to phase `p` (R211; PHASE follows fsm, R27). -/
def movedTo (p : Phase) (s : State) : State := { s with fsm := p, phase := p, sub := .issue }

/-- START has been issued: CONTROL holds CW_START (R146). -/
def startIssued (s : State) : State :=
  { s with
    ctl := { s.ctl with control := s.cfg.cwStart }
    accesses := s.accesses ++ [.write .control s.cfg.cwStart]
    trace := s.trace ++ [.prim .start]
    sub := .wait
    polls := 0 }

/-- TX(b) has been issued: DATA, then CONTROL (R148, R87). -/
def txIssued (b : Byte) (s : State) : State :=
  { s with
    ctl := { s.ctl with data := b, control := s.cfg.cwTx }
    accesses := s.accesses ++ [.write .data b, .write .control s.cfg.cwTx]
    trace := s.trace ++ [.prim (.tx b)]
    sub := .wait
    polls := 0 }

/-- RX_ACK has been issued (R149). -/
def rxAckIssued (s : State) : State :=
  { s with
    ctl := { s.ctl with control := s.cfg.cwRxAck }
    accesses := s.accesses ++ [.write .control s.cfg.cwRxAck]
    trace := s.trace ++ [.prim .rxAck]
    sub := .wait
    polls := 0 }

/-- RX_NACK has been issued (R150). -/
def rxNackIssued (s : State) : State :=
  { s with
    ctl := { s.ctl with control := s.cfg.cwRxNack }
    accesses := s.accesses ++ [.write .control s.cfg.cwRxNack]
    trace := s.trace ++ [.prim .rxNack]
    sub := .wait
    polls := 0 }

/-- STOP has been issued; nothing is waited for (R147). -/
def stopIssued (s : State) : State :=
  { s with
    ctl := { s.ctl with control := s.cfg.cwStop }
    accesses := s.accesses ++ [.write .control s.cfg.cwStop]
    trace := s.trace ++ [.prim .stop] }

/-- SET_RATE has been issued with divisor `d`, and the prescaler where there is one (R141, R113). -/
def rateIssued (d : Byte) (s : State) : State :=
  { s with
    ctl := { s.ctl with rate := d, prescaler := s.cfg.ratePrescaler.getD s.ctl.prescaler }
    accesses := s.accesses ++ .write .rate d ::
      s.cfg.ratePrescaler.toList.map fun q => .write .prescaler (q.setWidth 8)
    trace := s.trace ++ [.prim (.setRate d)] }

/-- A poll has been made and ENV answered `d`: CONTROL was read, and no other register (R145). -/
def polled (d : EnvDraw) (s : State) : State :=
  { s with
    ctl := { s.ctl with control := d.control, status := d.status, data := d.data }
    env := s.env.tail
    draws := s.draws + 1
    accesses := s.accesses ++ [.read .control d.control] }

/-- The completion read of TX: STATUS after CONTROL (R148). -/
def statusRead (d : EnvDraw) (s : State) : State :=
  { polled d s with accesses := s.accesses ++ [.read .control d.control, .read .status d.status] }

/-- The completion reads of a receive: CONTROL, DATA, STATUS (R149, R151). -/
def byteRead (d : EnvDraw) (s : State) : State :=
  { polled d s with
    accesses := s.accesses ++
      [.read .control d.control, .read .data d.data, .read .status d.status] }

/-- The fail path has been entered from phase `p` (R220). -/
def failed (code : Byte) (q : Pend) (p : Phase) (s : State) : State :=
  if s.cfg.stopOnFail then
    { s with result := code, phase := p, pend := q, sub := .issue, fsm := .failStop }
  else
    { s with result := code, phase := p, pend := q, sub := .issue, fsm := .idle,
             outcome := match q with | .failed => .failed | .timedOut => .timedOut }

/-- A poll of phase `p` has read the completion flag as 0: one more poll, and TIMED_OUT when that was
the n-th (R145). -/
def missed (p : Phase) (d : EnvDraw) (s : State) : State :=
  if s.cfg.pollLimit = some (s.polls + 1) then
    failed s.cfg.timeoutCode .timedOut p { polled d s with polls := s.polls + 1 }
  else { polled d s with polls := s.polls + 1 }

/-- ENV's answer has the completion flag set (R145). -/
def completes (c : Config) (d : EnvDraw) : Prop := d.control.getLsbD c.ctlInt = true

/-- The status ENV answers, masked (R108). -/
def maskedAnswer (c : Config) (d : EnvDraw) : Byte := d.status &&& c.statusMask

/-- ENV completes the primitive with the masked status `code`. -/
def answers (c : Config) (code : Byte) (d : EnvDraw) : Prop :=
  completes c d ∧ maskedAnswer c d = code

/-- The rule of a phase whose primitive waits: its ISSUE step, a poll that completes, and a poll that
does not (R142, R145). -/
def WaitingPhaseRule (i : Instr) (p : Phase) (issued : State → State)
    (completed : EnvDraw → State → State) : Prop :=
  ∀ s : State,
    (s.sub = .issue → exec i s = .next (issued s)) ∧
    (s.sub = .wait → completes s.cfg s.nextDraw →
      exec i s = .next (completed s.nextDraw s)) ∧
    (s.sub = .wait → ¬ completes s.cfg s.nextDraw →
      exec i s = .next (missed p s.nextDraw s))

/-- A phase that sends a byte and checks the status: success as `onSuccess` says, and `Fail(s)` for
any other status (R175). -/
def checked (p : Phase) (expected : Byte) (onSuccess : State → State) (d : EnvDraw) (s : State) :
    State :=
  if maskedAnswer s.cfg d = expected then onSuccess (statusRead d s)
  else failed (maskedAnswer s.cfg d) .failed p (statusRead d s)

/-- HOST's next access writes `v` to CMD, as a word of R122 or as an 8-bit access at its address. -/
def writesCmd (v : Byte) (s : State) : Prop :=
  (∃ w rest, s.inputs = .host w :: rest ∧ decode s.cfg .host w = .ok (.hostWrite 4 v)) ∨
  (∃ rest, s.inputs =
    .raw { kind := .write, bits := 8, addr := s.cfg.hostBase + 4, data := v } :: rest)

/-- The reset input comes next. -/
def resetNext (s : State) : Prop := ∃ rest, s.inputs = .reset :: rest

/-- The BLOCK moves next: no other event is pending before its turn. -/
def blockNext (s : State) : Prop := s.inputs = [] ∨ ∃ rest, s.inputs = .block :: rest

/-- The machine takes steps: the configuration is legal (R9) and no fault is recorded (R12). -/
def running (s : State) : Prop := s.cfg.wf = true ∧ s.faulted = none

/-- The CMD byte `v` is rejected (R240). -/
def rejected (v : Byte) (s : State) : Prop :=
  s.fsm ≠ .idle ∨ 5 ≤ v.toNat ∨ ((v = 0x02#8 ∨ v = 0x03#8) ∧ s.sla.getLsbD 0 = true)

/-- The phases that read a status (R176). -/
def validatedPhases : List Phase := [.addrW, .memH, .memL, .addrR, .readData, .writeData]

/-- The expected code of each validated phase (R176). -/
def expectedCode (p : Phase) (s : State) : Byte :=
  match p with
  | .addrW => s.cfg.stAddrAckWrite
  | .addrR => s.cfg.stAddrAckRead
  | .readData =>
    if s.idx.toNat < max s.len.toNat 1 - 1 then s.cfg.stDataAckRead else s.cfg.stDataNackRead
  | _ => s.cfg.stDataAckWrite

/-- The successor of each phase on success (R211). -/
def successor (s : State) : Phase :=
  match s.fsm with
  | .idle => .idle
  | .config => .idle
  | .start => .addrW
  | .addrW => .memH
  | .memH => .memL
  | .memL =>
    match s.dir with
    | .read => .restart
    | .write => if 0 < s.len.toNat then .writeData else .stop
  | .restart => .addrR
  | .addrR => .readData
  | .readData => if s.idx.toNat + 1 < max s.len.toNat 1 then .readData else .stop
  | .writeData => if s.idx.toNat + 1 < s.len.toNat then .writeData else .stop
  | .stop => .idle
  | .failStop => .idle
  | .busStop => .idle

/-- The phase a step of row `i` belongs to: a phase row's own, an address byte's, and for a primitive
or a status the phase `fsm`. -/
def phaseOf (i : Instr) (s : State) : Phase :=
  match i with
  | .phIdle => .idle
  | .phConfig => .config
  | .phStart => .start
  | .phAddrW => .addrW
  | .phMemH => .memH
  | .phMemL => .memL
  | .phRestart => .restart
  | .phAddrR => .addrR
  | .phReadData => .readData
  | .phWriteData => .writeData
  | .phStop => .stop
  | .phFailStop => .failStop
  | .phBusStop => .busStop
  | .addrWriteByte _ => .addrW
  | .addrReadByte _ => .addrR
  | _ => s.fsm

/-- The rows the BLOCK and ENV run, as opposed to HOST's. -/
def blockRow (i : Instr) : Prop := spaceOf i ≠ .cmd ∧ spaceOf i ≠ .host

/-- ENV's next answer, with the completion flag set and this status. -/
def answerWith (v : Byte) (s : State) : EnvDraw :=
  { control := s.nextDraw.control ||| bit s.cfg.ctlInt, status := v, data := s.nextDraw.data }

/-- What no rule lets a step observe of ENV is hidden: the raw register bytes and their log. -/
def hideController (s : State) : State := { s with ctl := Controller.powerOn, accesses := [] }

end Sys2Proof.Machine

open Sys2Proof Sys2Proof.Machine

/-! ### Encodings -/

/-- One word of each space, written out from 30_encoding.md, decodes to its row. How HOST's triple and
TX's two bytes are laid out is the model's choice (log entry 5). -/
def Obligations.TableWordsDecode : Prop :=
  decode Config.default .cmd [0b00000010#8] = .ok .transferWrite ∧
  decode Config.default .cmd [0b10000010#8] = .ok (.reservedRsv 0b10000#5 0b010#3) ∧
  decode Config.default (.ctl .transmit) [0b10100100#8] = .ok .start ∧
  decode Config.default (.ctl .transmit) [0b10010100#8] = .ok .stop ∧
  decode Config.default (.ctl .transmit) [0b10000100#8, 0x41#8] = .ok (.tx 0x41#8) ∧
  decode Config.default (.ctl .receive) [0b11000100#8] = .ok .rxAck ∧
  decode Config.default (.ctl .receive) [0b10000100#8] = .ok .rxNack ∧
  decode Config.default .rate [0x48#8] = .ok (.setRate 0x48#8) ∧
  decode Config.default .busAddr [0b10100001#8] = .ok (.addrReadByte 0b1010000#7) ∧
  decode Config.default .status [0b00011010#8] = .ok (.addrAckWrite 0b010#3) ∧
  decode Config.default .phase [0b00001001#8] = .ok .phWriteData ∧
  decode Config.default .phase [0b00001101#8] = .error .notAPhase ∧
  decode Config.default .host [0x41#8, 0x00#8, 0x01#8] = .ok (.hostWrite 0x100 0x41#8) ∧
  decode Config.default .host [0x05#8, 0x00#8] = .ok (.hostRead 0x005)

/-- Decoding the encoding of a well-formed instruction gives it back, with every operand, for every
configuration that R9 allows and in which the six status names can be told apart. -/
def Obligations.DecodeOfEncodeIsIdentity : Prop :=
  ∀ (c : Config) (i : Instr), c.wf = true → c.namesStatuses = true → i.wellFormed = true →
    decode c (spaceOf i) (encode c i) = .ok i

/-- Every byte written to CMD is exactly one row of the table: the row it decodes to is well formed
and encodes to that byte, and the reserved rows are exactly the bytes of R102. -/
def Obligations.EveryCmdByteIsOneRow : Prop :=
  ∀ (c : Config) (v : Byte),
    spaceOf (decodeCmd v) = .cmd ∧ (decodeCmd v).wellFormed = true ∧
    encode c (decodeCmd v) = [v] ∧
    ((decodeCmd v = .reservedOp5 ∨ decodeCmd v = .reservedOp6 ∨ decodeCmd v = .reservedOp7 ∨
      ∃ r o, decodeCmd v = .reservedRsv r o) ↔ (v.extractLsb' 3 5 ≠ 0#5 ∨ 5 ≤ v.toNat))

/-- R111: the bits each command word sets, the default values, and that no step writes CONTROL with
any other word. -/
def Obligations.ControlHoldsOnlyCommandWords : Prop :=
  (∀ c : Config, c.wf = true → ∀ k, k < 8 →
    (c.cwStart.getLsbD k = true ↔ k = c.ctlInt ∨ k = c.ctlSta ∨ k = c.ctlEn) ∧
    (c.cwStop.getLsbD k = true ↔ k = c.ctlInt ∨ k = c.ctlSto ∨ k = c.ctlEn) ∧
    (c.cwTx.getLsbD k = true ↔ k = c.ctlInt ∨ k = c.ctlEn) ∧
    (c.cwRxAck.getLsbD k = true ↔ k = c.ctlInt ∨ k = c.ctlEa ∨ k = c.ctlEn) ∧
    (c.cwRxNack.getLsbD k = true ↔ k = c.ctlInt ∨ k = c.ctlEn)) ∧
  (Config.default.cwStart = 0xA4#8 ∧ Config.default.cwStop = 0x94#8 ∧
    Config.default.cwTx = 0x84#8 ∧ Config.default.cwRxAck = 0xC4#8 ∧
    Config.default.cwRxNack = 0x84#8) ∧
  (∀ s t : State, step s = .next t → ∃ new, t.accesses = s.accesses ++ new ∧
    (∀ v, EnvAccess.write .control v ∈ new →
      v ∈ [s.cfg.cwStart, s.cfg.cwStop, s.cfg.cwTx, s.cfg.cwRxAck, s.cfg.cwRxNack]) ∧
    (∀ v, EnvAccess.write .status v ∉ new))

/-! ### The step -/

/-- A step runs the instruction decoded from HOST's access, or from the phase code of `fsm`. -/
def Obligations.StepRunsDecodedInstruction : Prop :=
  (∀ (s : State) (i : Instr), running s →
    (∀ w rest, s.inputs = .host w :: rest → decode s.cfg .host w = .ok i →
      step s = exec i { s with inputs := rest }) ∧
    (∀ rest, s.inputs = .block :: rest → decode s.cfg .phase [s.fsm.code] = .ok i →
      step s = exec i { s with inputs := rest }) ∧
    (s.inputs = [] → decode s.cfg .phase [s.fsm.code] = .ok i → step s = exec i s)) ∧
  (∀ (c : Config) (p : Phase), decode c .phase [p.code] = .ok (phaseInstr p))

/-- Every row of the opcode table is run by the machine's own step: placed, it is what the very next
step runs, in the state its placing prepares (how it is placed is the model's choice, log entry 7). -/
def Obligations.StepRunsEveryPlacedRow : Prop :=
  ∀ (s : State) (i : Instr), running s → i.wellFormed = true →
    step (place i s) = exec i (prepare i s)

/-- A recorded fault is never cleared and a faulted state is not final (R12); that the step after the
record answers the fault is the model's choice (log entry 1). -/
def Obligations.RecordedFaultEndsTheRun : Prop :=
  (∀ (s : State) (f : Fault), s.cfg.wf = true → s.faulted = some f → step s = .fault f) ∧
  (∀ (s : State) (f : Fault), s.faulted = some f → s.final = false) ∧
  (∀ (s t : State) (i : Instr) (f : Fault), s.faulted = some f → exec i s = .next t →
    t.faulted = some f)

/-- R9: the constraints a configuration is checked against, and the refusal of one that breaks
them. -/
def Obligations.BadConfigurationIsRefused : Prop :=
  (∀ c : Config, c.wf = true ↔
    (∀ st, st = c.stStartSent ∨ st = c.stAddrAckWrite ∨ st = c.stAddrAckRead ∨
      st = c.stDataAckWrite ∨ st = c.stDataAckRead ∨ st = c.stDataNackRead →
      st &&& ~~~c.statusMask = 0#8) ∧
    c.timeoutCode &&& c.statusMask = 0#8 ∧ c.timeoutCode ≠ 0#8 ∧
    [c.ctlInt, c.ctlEa, c.ctlSta, c.ctlSto, c.ctlEn].Nodup ∧
    (∀ p, p = c.ctlInt ∨ p = c.ctlEa ∨ p = c.ctlSta ∨ p = c.ctlSto ∨ p = c.ctlEn → p < 8) ∧
    (∀ n, c.pollLimit = some n → 1 ≤ n) ∧
    255 ≤ c.bufSize) ∧
  (∀ s : State, step s = .refused .badConfig ↔ s.cfg.wf = false)

/-! ### Reset and the invariant -/

/-- The values R60 gives every piece of BLOCK state after reset; what the spec leaves unspecified
(ENV's state) is not stated. That the log of accesses is empty is the model's choice (log entry 8). -/
def Obligations.ResetLeavesTheStateOfR60 : Prop :=
  let s := State.reset
  s.sla = 0x00#8 ∧ s.mah = 0x00#8 ∧ s.mal = 0x00#8 ∧ s.len = 0x00#8 ∧
  exec (.hostRead 4) s = .next { s with hostValue := 0x00#8 } ∧
  s.stat = 0x00#8 ∧ s.busy = false ∧ s.outcome = .none ∧ s.rateCfg = false ∧ s.cmdRej = false ∧
  s.result = 0x00#8 ∧ s.phase.code = 0x00#8 ∧ s.idx = 0x00#8 ∧ (∀ i, s.written i = false) ∧
  s.fsm = .idle ∧ s.sub = .issue ∧ s.polls = 0 ∧ s.dir = .write ∧ s.pend = .failed ∧
  s.faulted = none ∧ s.trace = [] ∧ s.accesses = []

/-- R310: reset in any phase and sub-state gives every piece of BLOCK state its value of R60 in one
event, issues no primitive, adds its own entry to the trace (R143), and the first command after it is
accepted. That the accesses, ENV's answers, the configuration and the remaining inputs are kept is
log entry 17 (DEDUCED). -/
def Obligations.ResetEventFromAnyState : Prop :=
  ∀ (s : State) (rest : List Input), running s → s.inputs = .reset :: rest →
    ∃ t, step s = .next t ∧
      t.sla = 0x00#8 ∧ t.mah = 0x00#8 ∧ t.mal = 0x00#8 ∧ t.len = 0x00#8 ∧ t.stat = 0x00#8 ∧
      t.outcome = .none ∧ t.rateCfg = false ∧ t.cmdRej = false ∧
      t.result = 0x00#8 ∧ t.phase = .idle ∧ t.idx = 0x00#8 ∧ (∀ i, t.written i = false) ∧
      t.fsm = .idle ∧ t.sub = .issue ∧ t.polls = 0 ∧ t.dir = .write ∧ t.pend = .failed ∧
      t.trace = s.trace ++ [.reset] ∧ t.accesses = s.accesses ∧ t.env = s.env ∧
      t.cfg = s.cfg ∧ t.inputs = rest ∧
      (∃ u, exec .configureRate t = .next u ∧ u.cmdRej = false ∧ u.fsm = .config)

/-- The invariant holds after reset. -/
def Obligations.InvHoldsAtReset : Prop := State.reset.Inv

/-- Every step keeps the invariant, whichever agent moves. -/
def Obligations.StepKeepsInv : Prop :=
  ∀ s t : State, s.Inv → step s = .next t → t.Inv

/-! ### The HOST window -/

/-- R254: the eight registers can be read at any time and give their values; CMD reads 0x00. -/
def Obligations.HostReadsRegisters : Prop :=
  ∀ s : State,
    exec (.hostRead 0x000) s = .next { s with hostValue := s.sla } ∧
    exec (.hostRead 0x001) s = .next { s with hostValue := s.mah } ∧
    exec (.hostRead 0x002) s = .next { s with hostValue := s.mal } ∧
    exec (.hostRead 0x003) s = .next { s with hostValue := s.len } ∧
    exec (.hostRead 0x004) s = .next { s with hostValue := 0x00#8 } ∧
    exec (.hostRead 0x005) s = .next { s with hostValue := s.stat } ∧
    exec (.hostRead 0x006) s = .next { s with hostValue := s.result } ∧
    exec (.hostRead 0x007) s = .next { s with hostValue := s.phase.code } ∧
    exec (.hostRead 0x008) s = .next { s with hostValue := s.idx }

/-- The fields of the byte STAT reads as (R25). -/
def Obligations.StatByteFields : Prop :=
  ∀ s : State,
    (s.stat.getLsbD 0 = true ↔ s.fsm ≠ .idle) ∧
    s.stat.extractLsb' 1 2 = (match s.outcome with
      | .none => 0b00#2 | .complete => 0b01#2 | .failed => 0b10#2 | .timedOut => 0b11#2) ∧
    s.stat.getLsbD 3 = s.rateCfg ∧ s.stat.getLsbD 4 = s.cmdRej ∧
    s.stat.extractLsb' 5 3 = 0b000#3

/-- R77: a write to BUF while BUSY = 0 sets the byte and marks it written, every other byte reads as
before, and a read gives a written byte and makes the model fault on an unwritten one. -/
def Obligations.BufWriteAndRead : Prop :=
  ∀ (s : State) (i : Nat) (v : Byte), s.busy = false → i < 256 → i < s.cfg.bufSize →
    exec (.hostWrite (0x100 + i) v) s = .next { s with buf := s.buf.write i v } ∧
    (s.buf.write i v).read i = some v ∧
    (∀ a, a ≠ i → (s.buf.write i v).read a = s.buf.read a) ∧
    (∀ b, s.buf.read i = some b →
      exec (.hostRead (0x100 + i)) s = .next { s with hostValue := b }) ∧
    (s.buf.read i = none → s.faulted = none →
      ∃ t, exec (.hostRead (0x100 + i)) s = .next t ∧ t.faulted = some .bufReadUnwritten)

/-- R76: a HOST access to BUF while BUSY = 1 makes the model fault, and the write is ignored. -/
def Obligations.BufIsBorrowedWhileBusy : Prop :=
  ∀ (s : State) (i : Nat) (v : Byte), s.busy = true → s.faulted = none → i < 256 →
    i < s.cfg.bufSize →
    exec (.hostWrite (0x100 + i) v) s = .next { s with faulted := some .bufWhileBusy } ∧
    ∃ t, exec (.hostRead (0x100 + i)) s = .next t ∧ t.faulted = some .bufWhileBusy

/-- R255, R256: a descriptor write stores any byte while BUSY = 0; a write to the descriptor or to BUF
while BUSY = 1 is ignored and makes the model fault. -/
def Obligations.DescriptorWrites : Prop :=
  ∀ (s : State) (v : Byte),
    (s.busy = false →
      exec (.hostWrite 0x000 v) s = .next { s with sla := v } ∧
      exec (.hostWrite 0x001 v) s = .next { s with mah := v } ∧
      exec (.hostWrite 0x002 v) s = .next { s with mal := v } ∧
      exec (.hostWrite 0x003 v) s = .next { s with len := v }) ∧
    (s.busy = true → s.faulted = none →
      (∀ off, off < 4 →
        exec (.hostWrite off v) s = .next { s with faulted := some .descriptorWhileBusy }) ∧
      ∀ i, i < 256 → i < s.cfg.bufSize →
        exec (.hostWrite (0x100 + i) v) s = .next { s with faulted := some .bufWhileBusy })

/-- A HOST write to STAT, RESULT, PHASE or IDX is ignored, and is no fault (R73). -/
def Obligations.ReadOnlyRegistersIgnoreWrites : Prop :=
  ∀ (s : State) (off : Nat) (v : Byte), 0x005 ≤ off → off ≤ 0x008 →
    exec (.hostWrite off v) s = .next s

/-- R72: a HOST read or write at an offset in 0x009..0x0FF, or at or above 0x200, makes the model
fault. -/
def Obligations.UnmappedOffsetsFault : Prop :=
  ∀ (s : State) (off : Nat) (v : Byte), s.faulted = none →
    ((0x009 ≤ off ∧ off ≤ 0x0FF) ∨ 0x200 ≤ off) →
    (∃ t, exec (.hostWrite off v) s = .next t ∧ t.faulted = some .unmappedOffset) ∧
    ∃ t, exec (.hostRead off) s = .next t ∧ t.faulted = some .unmappedOffset

/-- R71: an access of any width but 8 bits that reaches a byte at or above HOST_BASE makes the model
fault, wherever it begins; an 8-bit access is the one at its offset. That the width is checked before
the offset, what a width covers, and that an access wholly below HOST_BASE changes nothing are the
model's choice (log entry 16). -/
def Obligations.OnlyByteAccesses : Prop :=
  ∀ (s : State) (k : AccessKind) (bits addr : Nat) (v : Byte) (rest : List Input), running s →
    s.inputs = .raw { kind := k, bits := bits, addr := addr, data := v } :: rest →
    (bits ≠ 8 → s.cfg.hostBase ≤ addr ∨ s.cfg.hostBase < addr + (bits + 7) / 8 →
      step s = .next { s with inputs := rest, faulted := some .accessWidth }) ∧
    (∀ off, bits = 8 → addr = s.cfg.hostBase + off →
      (k = .write → step s = exec (.hostWrite off v) { s with inputs := rest }) ∧
      (k = .read → step s = exec (.hostRead off) { s with inputs := rest })) ∧
    (addr < s.cfg.hostBase → addr + (bits + 7) / 8 ≤ s.cfg.hostBase →
      step s = .next { s with inputs := rest })

/-- What a HOST access leaves unchanged (where the model faults, nothing but the record changes: log
entry 1): a read, everything but the value returned and the fault
record; a write outside CMD, everything but its own register or byte and the fault record. -/
def Obligations.HostAccessFrame : Prop :=
  (∀ (s t : State) (off : Nat), exec (.hostRead off) s = .next t →
    t = { s with hostValue := t.hostValue, faulted := t.faulted } ∧
    ∀ a, t.buf.read a = s.buf.read a) ∧
  (∀ (s t : State) (off : Nat) (v : Byte), off ≠ 0x004 → exec (.hostWrite off v) s = .next t →
    t = { s with sla := t.sla, mah := t.mah, mal := t.mal, len := t.len, buf := t.buf,
                 faulted := t.faulted } ∧
    (off ≠ 0x000 → t.sla = s.sla) ∧ (off ≠ 0x001 → t.mah = s.mah) ∧
    (off ≠ 0x002 → t.mal = s.mal) ∧ (off ≠ 0x003 → t.len = s.len) ∧
    ∀ a, off ≠ 0x100 + a → t.buf.read a = s.buf.read a)

/-- The canonical form makes equal buffers equal data, and every write keeps it. -/
def Obligations.BufferFormIsCanonical : Prop :=
  (∀ m m' : Memory, m.wf = true → m'.wf = true → (∀ a, m.read a = m'.read a) → m = m') ∧
  (∀ (m : Memory) (a : Nat) (v : Byte), m.wf = true → a < 256 → (m.write a v).wf = true)

/-! ### Commands -/

/-- R242: a NOP clears CMD_REJ while BUSY = 0 and changes nothing else; while BUSY = 1 it is
rejected. -/
def Obligations.NopClearsRejection : Prop :=
  ∀ s : State,
    (s.busy = false → exec .nop s = .next { s with cmdRej := false }) ∧
    (s.busy = true → exec .nop s = .next { s with cmdRej := true })

/-- CONFIGURE_RATE (R243): accepted while BUSY = 0, with the next BLOCK step in phase CONFIG; it
touches no other register. -/
def Obligations.ConfigureRateIsAccepted : Prop :=
  ∀ s : State, s.busy = false →
    exec .configureRate s =
      .next { s with cmdRej := false, fsm := .config, phase := .config, sub := .issue }

/-- STOP_BUS (R247): accepted while BUSY = 0, whatever the bus state, with the next BLOCK step in phase
BUS_STOP; it touches no other register. -/
def Obligations.StopBusIsAccepted : Prop :=
  ∀ s : State, s.busy = false →
    exec .stopBus s =
      .next { s with cmdRej := false, fsm := .busStop, phase := .busStop, sub := .issue }

/-- R241, R253: the acceptance of a TRANSFER while BUSY = 0 with an even SLA. With RATE_CFG = 0 it is
accepted too, and the model records the fault. -/
def Obligations.TransferIsAccepted : Prop :=
  ∀ s : State, s.busy = false → s.sla.getLsbD 0 = false →
    let started := { s with
      cmdRej := false, result := 0x00#8, outcome := .none, idx := 0x00#8,
      fsm := .start, phase := .start, sub := .issue, polls := 0,
      faulted := if s.rateCfg then s.faulted else some (s.faulted.getD .rateNotConfigured) }
    exec .transferWrite s = .next { started with dir := .write } ∧
    exec .transferRead s = .next { started with dir := .read }

/-- R250: a TRANSFER command with SLA[0] = 1 is rejected: CMD_REJ and nothing else. -/
def Obligations.OddSlaIsRejected : Prop :=
  ∀ s : State, s.sla.getLsbD 0 = true →
    exec .transferWrite s = .next { s with cmdRej := true } ∧
    exec .transferRead s = .next { s with cmdRej := true }

/-- R251: any CMD write while BUSY = 1 is rejected, whatever its byte, and the running command is
unaffected. -/
def Obligations.BusyRejectsEveryCommand : Prop :=
  ∀ (s : State) (v : Byte), s.busy = true →
    exec (.hostWrite 0x004 v) s = .next { s with cmdRej := true } ∧
    exec (decodeCmd v) s = .next { s with cmdRej := true }

/-- R249: a reserved command sets CMD_REJ and does nothing else, whether BUSY is 0 or 1. -/
def Obligations.ReservedCommandsAreRejected : Prop :=
  ∀ s : State,
    exec .reservedOp5 s = .next { s with cmdRej := true } ∧
    exec .reservedOp6 s = .next { s with cmdRej := true } ∧
    exec .reservedOp7 s = .next { s with cmdRej := true } ∧
    ∀ (rsv : BitVec 5) (op : BitVec 3),
      exec (.reservedRsv rsv op) s = .next { s with cmdRej := true }

/-- A HOST write to CMD runs the command its byte decodes to (R240). -/
def Obligations.CmdWriteRunsDecodedCommand : Prop :=
  ∀ (s : State) (v : Byte), exec (.hostWrite 0x004 v) s = exec (decodeCmd v) s

/-- R252: CMD_REJ is written by every HOST write to CMD, 1 when it is rejected and 0 otherwise, and by
nothing else except reset. -/
def Obligations.CmdRejFollowsCmdWrites : Prop :=
  ∀ s t : State, step s = .next t →
    (∀ v, writesCmd v s → (t.cmdRej = true ↔ rejected v s)) ∧
    (resetNext s → t.cmdRej = false) ∧
    ((∀ v, ¬ writesCmd v s) → ¬ resetNext s → t.cmdRej = s.cmdRej)

/-- Only a HOST write to CMD starts BLOCK activity (R24): a step that leaves IDLE is one, with one of
the four commands that start the BLOCK. -/
def Obligations.OnlyCmdWritesStartTheBlock : Prop :=
  ∀ s t : State, s.fsm = .idle → step s = .next t → t.fsm ≠ .idle →
    writesCmd 0x01#8 s ∨ writesCmd 0x02#8 s ∨ writesCmd 0x03#8 s ∨ writesCmd 0x04#8 s

/-- The descriptor cannot change while BUSY = 1 (R35), and only READ_DATA, at IDX, writes BUF (R74). -/
def Obligations.DescriptorIsFixedWhileBusy : Prop :=
  ∀ s t : State, s.busy = true → step s = .next t → ¬ resetNext s →
    t.sla = s.sla ∧ t.mah = s.mah ∧ t.mal = s.mal ∧ t.len = s.len ∧
    (∀ a, s.fsm ≠ .readData ∨ s.sub = .issue ∨ a ≠ s.bufIndex → t.buf.read a = s.buf.read a)

/-- What the nine rows of space CMD leave unchanged. -/
def Obligations.CommandRowsFrame : Prop :=
  ∀ (i : Instr) (s t : State), spaceOf i = .cmd → exec i s = .next t →
    t = { s with
      cmdRej := t.cmdRej, fsm := t.fsm, phase := t.phase, sub := t.sub, polls := t.polls,
      dir := t.dir, result := t.result, outcome := t.outcome, idx := t.idx,
      faulted := t.faulted } ∧
    (∀ a, t.buf.read a = s.buf.read a) ∧
    (i ≠ .transferWrite → i ≠ .transferRead →
      t = { s with cmdRej := t.cmdRej, fsm := t.fsm, phase := t.phase, sub := t.sub }) ∧
    (i = .nop ∨ s.busy = true ∨ t.cmdRej = true → t = { s with cmdRej := t.cmdRej })

/-! ### Primitives and address bytes -/

/-- The ISSUE step of the primitives that wait (R146, R148, R149, R150), in any phase and with any byte
(the model's choice where the phase issues another primitive or byte: log entry 11). -/
def Obligations.WaitingPrimitivesIssue : Prop :=
  ∀ s : State, s.sub = .issue →
    exec .start s = .next (startIssued s) ∧
    (∀ b, exec (.tx b) s = .next (txIssued b s)) ∧
    exec .rxAck s = .next (rxAckIssued s) ∧
    exec .rxNack s = .next (rxNackIssued s)

/-- The WAIT step of the outstanding primitive, that of phase `fsm`, is the phase's own (R142); that any
row of CTL or RATE polls it is the model's choice (log entry 11). -/
def Obligations.OutstandingPrimitiveIsPolled : Prop :=
  ∀ (s : State) (i : Instr), s.sub = .wait → s.fsm ∈ waitingPhases →
    (i = .start ∨ i = .stop ∨ i = .rxAck ∨ i = .rxNack ∨ (∃ b, i = .tx b) ∨
      (∃ d, i = .setRate d)) →
    exec i s = exec (phaseInstr s.fsm) s

/-- The only step of STOP and SET_RATE (R147, R141): the writes, and in the same step the completion
action of the phase that issued it. That in a phase that never issues it only the writes happen,
and that SET_RATE writes its own byte `d` where that is not `RATE_DIVISOR`, are the model's choice (log
entry 11). -/
def Obligations.StopAndSetRateIssue : Prop :=
  ∀ s : State, s.sub = .issue →
    (s.fsm = .stop → exec .stop s = .next { stopIssued s with
      outcome := .complete, phase := .idle, fsm := .idle }) ∧
    (s.fsm = .failStop → exec .stop s = .next { stopIssued s with
      outcome := match s.pend with | .failed => .failed | .timedOut => .timedOut, fsm := .idle }) ∧
    (s.fsm = .busStop → exec .stop s = .next { stopIssued s with phase := .idle, fsm := .idle }) ∧
    (s.fsm ∉ [Phase.stop, .failStop, .busStop] → exec .stop s = .next (stopIssued s)) ∧
    (∀ d, s.fsm = .config → exec (.setRate d) s = .next { rateIssued d s with
      rateCfg := true, phase := .idle, fsm := .idle }) ∧
    (∀ d, s.fsm ≠ .config → exec (.setRate d) s = .next (rateIssued d s))

/-- What every row the BLOCK or ENV runs leaves unchanged; `bufIndex` is where READ_DATA stores. -/
def Obligations.BlockRowsFrame : Prop :=
  ∀ (i : Instr) (s t : State), blockRow i → exec i s = .next t →
    t.cfg = s.cfg ∧ t.sla = s.sla ∧ t.mah = s.mah ∧ t.mal = s.mal ∧ t.len = s.len ∧
    t.cmdRej = s.cmdRej ∧ t.dir = s.dir ∧ t.inputs = s.inputs ∧ t.hostValue = s.hostValue ∧
    (∀ a, a ≠ s.bufIndex → t.buf.read a = s.buf.read a) ∧
    (s.sub = .issue ∨ phaseOf i s ≠ .readData → ∀ a, t.buf.read a = s.buf.read a) ∧
    (t.rateCfg = s.rateCfg ∨ phaseOf i s = .config) ∧
    (t.outcome = s.outcome ∨ t.fsm = .idle) ∧
    (t.idx = s.idx ∨ (s.sub = .wait ∧ t.idx = s.idx + 1#8 ∧
      (phaseOf i s = .readData ∨ phaseOf i s = .writeData))) ∧
    (s.sub = .issue → t.result = s.result ∧ t.pend = s.pend ∧ t.env = s.env ∧
      t.draws = s.draws) ∧
    (s.sub = .wait → t.trace = s.trace ∧ t.ctl.rate = s.ctl.rate ∧
      t.ctl.prescaler = s.ctl.prescaler) ∧
    (t.faulted = s.faulted ∨ i = .phWriteData)

/-- The two address bytes of an even SLA (R104, R105): the read byte is one more, is the OR with the
direction bit, does not wrap, and carries the same 7-bit address. -/
def Obligations.AddressBytesDifferByOne : Prop :=
  (∀ a : BitVec 7,
    addressByte a 0#1 = a.setWidth 8 <<< 1 ∧
    addressByte a 1#1 = (a.setWidth 8 <<< 1 ||| 1#8) ∧
    addressByte a 1#1 = addressByte a 0#1 + 1#8 ∧
    (addressByte a 0#1).toNat + 1 = (addressByte a 1#1).toNat ∧
    slaveField (addressByte a 0#1) = a ∧ slaveField (addressByte a 1#1) = a) ∧
  (∀ s : State, s.sla.getLsbD 0 = false →
    s.readAddr = s.writeAddr ||| 1#8 ∧ s.readAddr.toNat = s.writeAddr.toNat + 1 ∧
    s.writeAddr = addressByte (slaveField s.sla) 0#1)

/-- A row of space BUS_ADDR is the address phase that sends its byte (R170), also where that is not
SLA's (the model's choice, log entry 13). -/
def Obligations.AddressRowsAreAddressPhases : Prop :=
  ∀ a : BitVec 7,
    WaitingPhaseRule (.addrWriteByte a) .addrW (txIssued (addressByte a 0#1))
      (fun d s => checked .addrW s.cfg.stAddrAckWrite (movedTo .memH) d s) ∧
    WaitingPhaseRule (.addrReadByte a) .addrR (txIssued (addressByte a 1#1))
      (fun d s => checked .addrR s.cfg.stAddrAckRead (movedTo .readData) d s)

/-! ### Phases -/

/-- R213, R216, R179: START and RESTART issue START, read no status, and go on to ADDR_W and
ADDR_R. -/
def Obligations.StartPhases : Prop :=
  WaitingPhaseRule .phStart .start startIssued (fun d s => movedTo .addrW (polled d s)) ∧
  WaitingPhaseRule .phRestart .restart startIssued (fun d s => movedTo .addrR (polled d s))

/-- R171, R172: ADDR_W sends SLA and expects ST_ADDR_ACK_WRITE; ADDR_R sends SLA + 1 and expects
ST_ADDR_ACK_READ. -/
def Obligations.AddressPhases : Prop :=
  WaitingPhaseRule .phAddrW .addrW (fun s => txIssued s.sla s)
    (fun d s => checked .addrW s.cfg.stAddrAckWrite (movedTo .memH) d s) ∧
  WaitingPhaseRule .phAddrR .addrR (fun s => txIssued (s.sla + 1#8) s)
    (fun d s => checked .addrR s.cfg.stAddrAckRead (movedTo .readData) d s)

/-- R214, R215: MEM_H sends MAH, MEM_L sends MAL and chooses the branch by `dir` and LEN. -/
def Obligations.MemoryAddressPhases : Prop :=
  WaitingPhaseRule .phMemH .memH (fun s => txIssued s.mah s)
    (fun d s => checked .memH s.cfg.stDataAckWrite (movedTo .memL) d s) ∧
  WaitingPhaseRule .phMemL .memL (fun s => txIssued s.mal s)
    (fun d s => checked .memL s.cfg.stDataAckWrite
      (movedTo (if s.dir = .read then .restart
        else if 0 < s.len.toNat then .writeData else .stop)) d s)

/-- WRITE_DATA sends BUF[IDX] and advances IDX on success; a byte no one wrote makes the model fault
(R190). -/
def Obligations.WriteDataPhase : Prop :=
  ∀ s : State,
    (s.sub = .issue → ∀ b, s.buf.read s.idx.toNat = some b →
      exec .phWriteData s = .next (txIssued b s)) ∧
    (s.sub = .issue → s.buf.read s.idx.toNat = none → s.faulted = none →
      ∃ t, exec .phWriteData s = .next t ∧ t.faulted = some .txUnwritten) ∧
    (s.sub = .wait → completes s.cfg s.nextDraw → s.idx.toNat < s.len.toNat →
      exec .phWriteData s = .next (checked .writeData s.cfg.stDataAckWrite
        (fun u => { movedTo (if s.idx.toNat + 1 < s.len.toNat then .writeData else .stop) u with
          idx := s.idx + 1#8 }) s.nextDraw s)) ∧
    (s.sub = .wait → ¬ completes s.cfg s.nextDraw →
      exec .phWriteData s = .next (missed .writeData s.nextDraw s))

/-- R195: READ_DATA receives with acknowledge for every byte but the last, stores the byte before it
checks the status, and advances IDX on success. -/
def Obligations.ReadDataPhase : Prop :=
  ∀ s : State, s.idx.toNat < max s.len.toNat 1 →
    (s.sub = .issue → s.idx.toNat < max s.len.toNat 1 - 1 →
      exec .phReadData s = .next (rxAckIssued s)) ∧
    (s.sub = .issue → s.idx.toNat = max s.len.toNat 1 - 1 →
      exec .phReadData s = .next (rxNackIssued s)) ∧
    (s.sub = .wait → completes s.cfg s.nextDraw →
      let d := s.nextDraw
      let stored := { byteRead d s with buf := s.buf.write s.idx.toNat d.data }
      (maskedAnswer s.cfg d = expectedCode .readData s →
        exec .phReadData s = .next { movedTo
          (if s.idx.toNat + 1 < max s.len.toNat 1 then .readData else .stop) stored with
          idx := s.idx + 1#8 }) ∧
      (maskedAnswer s.cfg d ≠ expectedCode .readData s →
        exec .phReadData s = .next (failed (maskedAnswer s.cfg d) .failed .readData stored)) ∧
      stored.buf.read s.idx.toNat = some d.data ∧ stored.written s.idx.toNat = true ∧
      ∀ a, a ≠ s.idx.toNat → stored.buf.read a = s.buf.read a) ∧
    (s.sub = .wait → ¬ completes s.cfg s.nextDraw →
      exec .phReadData s = .next (missed .readData s.nextDraw s))

/-- R244, R248: CONFIG and BUS_STOP end in one step. R212 enables no BLOCK step in IDLE; that a turn
there is a step that changes nothing is the model's choice (log entry 9). -/
def Obligations.IdleConfigAndBusStopPhases : Prop :=
  ∀ s : State,
    exec .phIdle s = .next s ∧
    (s.sub = .issue → exec .phConfig s = .next { rateIssued s.cfg.rateDivisor s with
      rateCfg := true, phase := .idle, fsm := .idle }) ∧
    (s.sub = .issue → exec .phBusStop s = .next { stopIssued s with phase := .idle, fsm := .idle })

/-- R217: STOP ends a transaction COMPLETE and does not write RESULT. R221: FAIL_STOP ends it with
`pend`, and PHASE keeps the failing phase. Each is one step, and neither can fail. -/
def Obligations.StopEndsTheTransaction : Prop :=
  ∀ s : State, s.sub = .issue →
    exec .phStop s = .next { stopIssued s with
      outcome := .complete, phase := .idle, fsm := .idle } ∧
    exec .phFailStop s = .next { stopIssued s with
      outcome := match s.pend with | .failed => .failed | .timedOut => .timedOut, fsm := .idle }

/-! ### Statuses -/

/-- Each named status completes the phase that expects it (R176, R179); that where nothing is polled it
only stands in STATUS is the model's choice (log entry 12). -/
def Obligations.NamedStatusCompletesItsPhase : Prop :=
  ∀ (s : State) (low : BitVec 3), s.cfg.wf = true → s.cfg.namesStatuses = true →
    let ans := fun st => answerWith (st ||| low.setWidth 8) s
    let shown := fun st : Byte => { s with ctl := { s.ctl with status := st ||| low.setWidth 8 } }
    (s.sub = .wait →
      (s.fsm = .start → exec (.startSent low) s =
        .next (movedTo .addrW (polled (ans s.cfg.stStartSent) s))) ∧
      (s.fsm = .restart → exec (.startSent low) s =
        .next (movedTo .addrR (polled (ans s.cfg.stStartSent) s))) ∧
      (s.fsm = .addrW → exec (.addrAckWrite low) s =
        .next (movedTo .memH (statusRead (ans s.cfg.stAddrAckWrite) s))) ∧
      (s.fsm = .addrR → exec (.addrAckRead low) s =
        .next (movedTo .readData (statusRead (ans s.cfg.stAddrAckRead) s))) ∧
      (s.fsm = .memH → exec (.dataAckWrite low) s =
        .next (movedTo .memL (statusRead (ans s.cfg.stDataAckWrite) s))) ∧
      (s.fsm = .memL ∨ (s.fsm = .writeData ∧ s.idx.toNat < s.len.toNat) →
        ∃ t, exec (.dataAckWrite low) s = .next t ∧ t.fsm = successor s ∧ t.sub = .issue) ∧
      (s.fsm = .readData → s.idx.toNat + 1 < max s.len.toNat 1 →
        ∃ t, exec (.dataAckRead low) s = .next t ∧ t.fsm = successor s ∧
          t.idx = s.idx + 1#8 ∧ t.buf.read s.idx.toNat = some s.nextDraw.data) ∧
      (s.fsm = .readData → s.idx.toNat + 1 = max s.len.toNat 1 →
        ∃ t, exec (.dataNackRead low) s = .next t ∧ t.fsm = .stop ∧
          t.idx = s.idx + 1#8 ∧ t.buf.read s.idx.toNat = some s.nextDraw.data)) ∧
    (s.sub = .issue →
      exec (.startSent low) s = .next (shown s.cfg.stStartSent) ∧
      exec (.addrAckWrite low) s = .next (shown s.cfg.stAddrAckWrite) ∧
      exec (.addrAckRead low) s = .next (shown s.cfg.stAddrAckRead) ∧
      exec (.dataAckWrite low) s = .next (shown s.cfg.stDataAckWrite) ∧
      exec (.dataAckRead low) s = .next (shown s.cfg.stDataAckRead) ∧
      exec (.dataNackRead low) s = .next (shown s.cfg.stDataNackRead))

/-- R175, R177: in every phase that reads a status, equality with the expected code is the only
success; any other masked status, named or not, aborts in that phase and is reported unchanged. -/
def Obligations.OnlyTheExpectedStatusSucceeds : Prop :=
  ∀ (s : State) (p : Phase), s.sub = .wait → p ∈ validatedPhases → completes s.cfg s.nextDraw →
    ∃ t, exec (phaseInstr p) s = .next t ∧ t.sub = .issue ∧ t.trace = s.trace ∧
      (maskedAnswer s.cfg s.nextDraw = expectedCode p s →
        t.fsm ∉ [Phase.idle, .failStop] ∧ t.phase = t.fsm ∧ t.result = s.result ∧
        t.outcome = s.outcome) ∧
      (maskedAnswer s.cfg s.nextDraw ≠ expectedCode p s →
        t.result = maskedAnswer s.cfg s.nextDraw ∧ t.phase = p ∧ t.pend = .failed ∧
        t.idx = s.idx ∧
        t.fsm = (if s.cfg.stopOnFail then .failStop else .idle) ∧
        t.outcome = (if s.cfg.stopOnFail then s.outcome else .failed))

/-- Only the status code and the completion flag of ENV's answer matter (R51, R108): two answers that
agree in the masked status, the INT bit and the data byte lead to the same state, but for the raw
register bytes. -/
def Obligations.InsignificantBitsDoNotMatter : Prop :=
  ∀ (s : State) (d d' : EnvDraw) (rest : List EnvDraw) (i : Instr), s.sub = .wait →
    (∃ p, i = phaseInstr p ∧ p ∈ waitingPhases) →
    d.data = d'.data → maskedAnswer s.cfg d = maskedAnswer s.cfg d' →
    (completes s.cfg d ↔ completes s.cfg d') →
    ∃ t t', exec i { s with env := d :: rest } = .next t ∧
      exec i { s with env := d' :: rest } = .next t' ∧ hideController t = hideController t'

/-! ### The whole machine -/

/-- R211: a turn of the BLOCK that changes `fsm` goes to the successor of the table, or, from a phase
that waits, to the fail path; and no phase goes back to an earlier one, but to IDLE. -/
def Obligations.SuccessorTable : Prop :=
  ∀ s t : State, s.Inv → blockNext s → step s = .next t →
    (t.fsm = s.fsm ∨ t.fsm = successor s ∨
      (s.fsm ∈ waitingPhases ∧ s.sub = .wait ∧ t.phase = s.fsm ∧
        t.fsm = if s.cfg.stopOnFail then .failStop else .idle)) ∧
    (t.fsm ≠ .idle → s.fsm.code.toNat ≤ t.fsm.code.toNat)

/-- A step adds at most one entry to the bus trace, in an ISSUE step of a busy BLOCK or for a reset,
and takes none away; a primitive that waits is then outstanding (R142, R143). -/
def Obligations.TraceGrowsByOneIssue : Prop :=
  ∀ s t : State, step s = .next t →
    t.trace = s.trace ∨
    (resetNext s ∧ t.trace = s.trace ++ [.reset]) ∨
    (∃ p, blockNext s ∧ s.fsm ≠ .idle ∧ s.sub = .issue ∧ t.trace = s.trace ++ [.prim p] ∧
      (p.waits = true → t.sub = .wait ∧ t.fsm = s.fsm) ∧ (p.waits = false → t.fsm = .idle))

/-- RESULT is written only at the acceptance of a TRANSFER, at entry to the fail path and by reset
(R26). -/
def Obligations.ResultIsWrittenOnlyByTheBlock : Prop :=
  ∀ s t : State, s.Inv → step s = .next t → t.result ≠ s.result →
    (t.result = 0x00#8 ∧ (resetNext s ∨
      (s.fsm = .idle ∧ (writesCmd 0x02#8 s ∨ writesCmd 0x03#8 s)))) ∨
    (s.sub = .wait ∧ s.fsm ∈ waitingPhases ∧ t.phase = s.fsm ∧
      ((t.pend = .failed ∧ t.result = maskedAnswer s.cfg s.nextDraw) ∨
        (t.pend = .timedOut ∧ t.result = s.cfg.timeoutCode)))

/-- A transfer that meets an unexpected status ends FAILED, in the next step with
`STOP_ON_FAIL = false` and in the one after it, with one STOP, otherwise (R220, R222). -/
def Obligations.MismatchEndsTheTransaction : Prop :=
  ∀ s : State, running s → s.inputs = [] → s.fsm ∈ validatedPhases → s.sub = .wait →
    completes s.cfg s.nextDraw → maskedAnswer s.cfg s.nextDraw ≠ expectedCode s.fsm s →
    ∃ t, SafeRun (if s.cfg.stopOnFail then 2 else 1) s t ∧
      t.fsm = .idle ∧ t.sub = .issue ∧ t.outcome = .failed ∧
      t.result = maskedAnswer s.cfg s.nextDraw ∧ t.phase = s.fsm ∧ t.idx = s.idx ∧
      t.trace = s.trace ++ (if s.cfg.stopOnFail then [.prim .stop] else []) ∧
      (s.fsm ≠ .readData → ∀ a, t.buf.read a = s.buf.read a) ∧
      (s.fsm = .readData → t.buf.read s.idx.toNat = some s.nextDraw.data ∧
        ∀ a, a ≠ s.idx.toNat → t.buf.read a = s.buf.read a)

/-- R296: with `POLL_LIMIT = none`, a WAIT whose completion flag ENV does not set goes on for as long
as ENV keeps it so: the BLOCK stays BUSY in its phase, and issues and reports nothing. -/
def Obligations.UnboundedWaitHangs : Prop :=
  ∀ (s : State) (k : Nat), running s → s.cfg.pollLimit = none → s.inputs = [] →
    s.fsm ∈ waitingPhases → s.sub = .wait → k ≤ s.env.length →
    (∀ d ∈ s.env, ¬ completes s.cfg d) →
    ∃ t, SafeRun k s t ∧ t.busy = true ∧ t.fsm = s.fsm ∧ t.sub = .wait ∧
      t.polls = s.polls + k ∧ t.trace = s.trace ∧ t.outcome = s.outcome ∧ t.result = s.result ∧
      t.buf = s.buf ∧ t.idx = s.idx

/-- With `POLL_LIMIT = some n`, exactly n polls that read the flag as 0 end the WAIT in TIMED_OUT
(R145, R272): no fewer, and with no byte stored. -/
def Obligations.BoundedWaitTimesOut : Prop :=
  ∀ (s : State) (n : Nat), running s → s.cfg.pollLimit = some n → s.inputs = [] →
    s.fsm ∈ waitingPhases → s.sub = .wait → s.polls = 0 → n ≤ s.env.length →
    (∀ d ∈ s.env, ¬ completes s.cfg d) →
    (∀ k, k < n → ∃ u, SafeRun k s u ∧ u.fsm = s.fsm ∧ u.sub = .wait ∧ u.polls = k) ∧
    ∃ t, SafeRun n s t ∧ t.result = s.cfg.timeoutCode ∧ t.phase = s.fsm ∧ t.pend = .timedOut ∧
      t.sub = .issue ∧ t.idx = s.idx ∧ t.buf = s.buf ∧ t.trace = s.trace ∧
      t.fsm = (if s.cfg.stopOnFail then .failStop else .idle) ∧
      t.outcome = (if s.cfg.stopOnFail then s.outcome else .timedOut)

/-- R210, R225: on a bus that answers every poll of a write with the expected status, HOST's
TRANSFER_WRITE of LEN bytes ends COMPLETE after 9 + 2·LEN BLOCK steps, with exactly the 5 + LEN
primitives of the sequence on the bus. -/
def Obligations.FaultFreeWriteCompletes : Prop :=
  ∀ (s : State) (data : List Byte) (d0 d1 d2 d3 : EnvDraw) (ds rest : List EnvDraw),
    running s → s.fsm = .idle → s.rateCfg = true → s.sla.getLsbD 0 = false →
    s.inputs = [.host (0x02#8 :: offsetBytes 4)] →
    data.length = s.len.toNat → (∀ i, i < s.len.toNat → s.buf.read i = data[i]?) →
    ds.length = s.len.toNat → s.env = d0 :: d1 :: d2 :: d3 :: (ds ++ rest) →
    completes s.cfg d0 → answers s.cfg s.cfg.stAddrAckWrite d1 →
    answers s.cfg s.cfg.stDataAckWrite d2 → answers s.cfg s.cfg.stDataAckWrite d3 →
    (∀ d ∈ ds, answers s.cfg s.cfg.stDataAckWrite d) →
    ∃ t, SafeRun (1 + (9 + 2 * s.len.toNat)) s t ∧
      t.fsm = .idle ∧ t.outcome = .complete ∧ t.result = 0x00#8 ∧ t.phase = .idle ∧
      t.idx = s.len ∧ t.cmdRej = false ∧ t.buf = s.buf ∧ t.env = rest ∧
      t.trace = s.trace ++ ([Primitive.start, .tx s.sla, .tx s.mah, .tx s.mal] ++
        data.map Primitive.tx ++ [Primitive.stop]).map TraceEntry.prim

/-- R196, R210, R225: on a bus that answers every poll of a read with the expected status, HOST's
TRANSFER_READ ends COMPLETE after 13 + 2·n BLOCK steps, n = max(LEN, 1), with n - 1 RX_ACK and one
RX_NACK on the bus and the n bytes in BUF in arrival order. -/
def Obligations.FaultFreeReadCompletes : Prop :=
  ∀ (s : State) (d0 d1 d2 d3 d4 d5 : EnvDraw) (ds rest : List EnvDraw),
    let n := max s.len.toNat 1
    running s → s.fsm = .idle → s.rateCfg = true → s.sla.getLsbD 0 = false →
    s.inputs = [.host (0x03#8 :: offsetBytes 4)] →
    ds.length = n → s.env = d0 :: d1 :: d2 :: d3 :: d4 :: d5 :: (ds ++ rest) →
    completes s.cfg d0 → answers s.cfg s.cfg.stAddrAckWrite d1 →
    answers s.cfg s.cfg.stDataAckWrite d2 → answers s.cfg s.cfg.stDataAckWrite d3 →
    completes s.cfg d4 → answers s.cfg s.cfg.stAddrAckRead d5 →
    (∀ i d, ds[i]? = some d →
      answers s.cfg (if i + 1 < n then s.cfg.stDataAckRead else s.cfg.stDataNackRead) d) →
    ∃ t, SafeRun (1 + (13 + 2 * n)) s t ∧
      t.fsm = .idle ∧ t.outcome = .complete ∧ t.result = 0x00#8 ∧ t.phase = .idle ∧
      t.idx.toNat = n ∧ t.cmdRej = false ∧ t.env = rest ∧
      (∀ i, i < n → t.buf.read i = ds[i]?.map EnvDraw.data) ∧
      (∀ i, n ≤ i → t.buf.read i = s.buf.read i) ∧
      t.trace = s.trace ++ ([Primitive.start, .tx s.sla, .tx s.mah, .tx s.mal, .start,
        .tx (s.sla + 1#8)] ++ List.replicate (n - 1) Primitive.rxAck ++
        [Primitive.rxNack, Primitive.stop]).map TraceEntry.prim
end

