-- ==== Sys2Proof/Laws/Memory.lean ====
section
/-! SUPPORT. The data buffer: what a read after a write gives, and that a write keeps the canonical
form. -/

namespace Sys2Proof.Machine

/-- A read after a write to the same index gives the value written. -/
@[simp] theorem Memory.read_write_same (m : Memory) (a : Nat) (v : Byte) :
    (m.write a v).read a = some v := by
  induction m with
  | nil => simp [Memory.write, Memory.read]
  | cons c rest ih =>
    obtain ⟨k, w⟩ := c
    simp only [Memory.write]
    split
    · simp [Memory.read]
    · split
      · simp [Memory.read]
      · rename_i _ hne
        simpa [Memory.read, hne] using ih

/-- A write leaves every other index alone. -/
theorem Memory.read_write_other (m : Memory) (a b : Nat) (v : Byte) (h : b ≠ a) :
    (m.write a v).read b = m.read b := by
  induction m with
  | nil => simp [Memory.write, Memory.read, h]
  | cons c rest ih =>
    obtain ⟨k, w⟩ := c
    simp only [Memory.write]
    split
    · simp [Memory.read, h]
    · split
      · rename_i _ heq
        subst heq
        simp [Memory.read, h]
      · simp [Memory.read, ih]

/-- A write keeps the indices strictly rising. -/
theorem Memory.risingFrom_write (m : Memory) (lo a : Nat) (v : Byte)
    (hm : Memory.risingFrom lo m = true) (ha : lo ≤ a) :
    Memory.risingFrom lo (m.write a v) = true := by
  induction m generalizing lo with
  | nil => simp [Memory.write, Memory.risingFrom, ha]
  | cons c rest ih =>
    obtain ⟨k, w⟩ := c
    simp only [Memory.risingFrom, Bool.and_eq_true, decide_eq_true_eq] at hm
    obtain ⟨hk, hrest⟩ := hm
    simp only [Memory.write]
    split
    · rename_i hlt
      simp only [Memory.risingFrom, Bool.and_eq_true, decide_eq_true_eq]
      exact ⟨ha, by omega, hrest⟩
    · split
      · rename_i _ heq
        subst heq
        simp [Memory.risingFrom, ha, hrest]
      · simp only [Memory.risingFrom, Bool.and_eq_true, decide_eq_true_eq]
        exact ⟨hk, ih (k + 1) hrest (by omega)⟩

/-- A write below 256 keeps every index below 256. -/
theorem Memory.all_lt_write (m : Memory) (a : Nat) (v : Byte)
    (hm : (m.all fun c => decide (c.1 < 256)) = true) (ha : a < 256) :
    ((m.write a v).all fun c => decide (c.1 < 256)) = true := by
  induction m with
  | nil => simp [Memory.write, ha]
  | cons c rest ih =>
    obtain ⟨k, w⟩ := c
    simp only [List.all_cons, Bool.and_eq_true, decide_eq_true_eq] at hm
    simp only [Memory.write]
    split
    · simp only [List.all_cons, Bool.and_eq_true, decide_eq_true_eq]
      exact ⟨ha, hm.1, hm.2⟩
    · split
      · simp only [List.all_cons, Bool.and_eq_true, decide_eq_true_eq]
        exact ⟨ha, hm.2⟩
      · simp only [List.all_cons, Bool.and_eq_true, decide_eq_true_eq]
        exact ⟨hm.1, ih hm.2⟩

/-- The only operation that changes the buffer keeps its canonical form. -/
theorem Memory.write_wf (m : Memory) (a : Nat) (v : Byte) (hm : m.wf = true) (ha : a < 256) :
    (m.write a v).wf = true := by
  simp only [Memory.wf, Bool.and_eq_true] at hm ⊢
  exact ⟨Memory.risingFrom_write m 0 a v hm.1 (Nat.zero_le a), Memory.all_lt_write m a v hm.2 ha⟩

/-- The BLOCK's index is an index of the buffer (R74). -/
theorem bufIndex_lt (s : State) : s.bufIndex < 256 := s.idx.isLt

/-- A received byte keeps the canonical form. -/
theorem storeReceived_wf (s : State) (h : s.buf.wf = true) :
    (storeReceived s).buf.wf = true :=
  Memory.write_wf s.buf s.bufIndex s.ctl.data h (bufIndex_lt s)

/-- The buffer after reset has the canonical form. -/
theorem reset_buf_wf : State.reset.buf.wf = true := rfl

end Sys2Proof.Machine
end

