-- ==== Sys2Proof/Laws/State.lean ====
section
/-! SUPPORT. One lemma per field per update of the state, true by definition, so that no later proof
unfolds a record update. The updates are the named ones of Machine/. -/

namespace Sys2Proof.Machine

variable (s : State)

/-! `reject` -/
@[simp] theorem reject_cfg : (reject s).cfg = s.cfg := rfl
@[simp] theorem reject_sla : (reject s).sla = s.sla := rfl
@[simp] theorem reject_mah : (reject s).mah = s.mah := rfl
@[simp] theorem reject_mal : (reject s).mal = s.mal := rfl
@[simp] theorem reject_len : (reject s).len = s.len := rfl
@[simp] theorem reject_outcome : (reject s).outcome = s.outcome := rfl
@[simp] theorem reject_rateCfg : (reject s).rateCfg = s.rateCfg := rfl
@[simp] theorem reject_cmdRej : (reject s).cmdRej = true := rfl
@[simp] theorem reject_result : (reject s).result = s.result := rfl
@[simp] theorem reject_phase : (reject s).phase = s.phase := rfl
@[simp] theorem reject_idx : (reject s).idx = s.idx := rfl
@[simp] theorem reject_buf : (reject s).buf = s.buf := rfl
@[simp] theorem reject_fsm : (reject s).fsm = s.fsm := rfl
@[simp] theorem reject_sub : (reject s).sub = s.sub := rfl
@[simp] theorem reject_polls : (reject s).polls = s.polls := rfl
@[simp] theorem reject_dir : (reject s).dir = s.dir := rfl
@[simp] theorem reject_pend : (reject s).pend = s.pend := rfl
@[simp] theorem reject_ctl : (reject s).ctl = s.ctl := rfl
@[simp] theorem reject_faulted : (reject s).faulted = s.faulted := rfl
@[simp] theorem reject_trace : (reject s).trace = s.trace := rfl
@[simp] theorem reject_accesses : (reject s).accesses = s.accesses := rfl
@[simp] theorem reject_inputs : (reject s).inputs = s.inputs := rfl
@[simp] theorem reject_env : (reject s).env = s.env := rfl
@[simp] theorem reject_draws : (reject s).draws = s.draws := rfl
@[simp] theorem reject_hostValue : (reject s).hostValue = s.hostValue := rfl

/-! `clearRej` -/
@[simp] theorem clearRej_cfg : (clearRej s).cfg = s.cfg := rfl
@[simp] theorem clearRej_sla : (clearRej s).sla = s.sla := rfl
@[simp] theorem clearRej_mah : (clearRej s).mah = s.mah := rfl
@[simp] theorem clearRej_mal : (clearRej s).mal = s.mal := rfl
@[simp] theorem clearRej_len : (clearRej s).len = s.len := rfl
@[simp] theorem clearRej_outcome : (clearRej s).outcome = s.outcome := rfl
@[simp] theorem clearRej_rateCfg : (clearRej s).rateCfg = s.rateCfg := rfl
@[simp] theorem clearRej_cmdRej : (clearRej s).cmdRej = false := rfl
@[simp] theorem clearRej_result : (clearRej s).result = s.result := rfl
@[simp] theorem clearRej_phase : (clearRej s).phase = s.phase := rfl
@[simp] theorem clearRej_idx : (clearRej s).idx = s.idx := rfl
@[simp] theorem clearRej_buf : (clearRej s).buf = s.buf := rfl
@[simp] theorem clearRej_fsm : (clearRej s).fsm = s.fsm := rfl
@[simp] theorem clearRej_sub : (clearRej s).sub = s.sub := rfl
@[simp] theorem clearRej_polls : (clearRej s).polls = s.polls := rfl
@[simp] theorem clearRej_dir : (clearRej s).dir = s.dir := rfl
@[simp] theorem clearRej_pend : (clearRej s).pend = s.pend := rfl
@[simp] theorem clearRej_ctl : (clearRej s).ctl = s.ctl := rfl
@[simp] theorem clearRej_faulted : (clearRej s).faulted = s.faulted := rfl
@[simp] theorem clearRej_trace : (clearRej s).trace = s.trace := rfl
@[simp] theorem clearRej_accesses : (clearRej s).accesses = s.accesses := rfl
@[simp] theorem clearRej_inputs : (clearRej s).inputs = s.inputs := rfl
@[simp] theorem clearRej_env : (clearRej s).env = s.env := rfl
@[simp] theorem clearRej_draws : (clearRej s).draws = s.draws := rfl
@[simp] theorem clearRej_hostValue : (clearRej s).hostValue = s.hostValue := rfl

/-! `recordFault` -/
@[simp] theorem recordFault_cfg (f : Fault) : (recordFault f s).cfg = s.cfg := rfl
@[simp] theorem recordFault_sla (f : Fault) : (recordFault f s).sla = s.sla := rfl
@[simp] theorem recordFault_mah (f : Fault) : (recordFault f s).mah = s.mah := rfl
@[simp] theorem recordFault_mal (f : Fault) : (recordFault f s).mal = s.mal := rfl
@[simp] theorem recordFault_len (f : Fault) : (recordFault f s).len = s.len := rfl
@[simp] theorem recordFault_outcome (f : Fault) : (recordFault f s).outcome = s.outcome := rfl
@[simp] theorem recordFault_rateCfg (f : Fault) : (recordFault f s).rateCfg = s.rateCfg := rfl
@[simp] theorem recordFault_cmdRej (f : Fault) : (recordFault f s).cmdRej = s.cmdRej := rfl
@[simp] theorem recordFault_result (f : Fault) : (recordFault f s).result = s.result := rfl
@[simp] theorem recordFault_phase (f : Fault) : (recordFault f s).phase = s.phase := rfl
@[simp] theorem recordFault_idx (f : Fault) : (recordFault f s).idx = s.idx := rfl
@[simp] theorem recordFault_buf (f : Fault) : (recordFault f s).buf = s.buf := rfl
@[simp] theorem recordFault_fsm (f : Fault) : (recordFault f s).fsm = s.fsm := rfl
@[simp] theorem recordFault_sub (f : Fault) : (recordFault f s).sub = s.sub := rfl
@[simp] theorem recordFault_polls (f : Fault) : (recordFault f s).polls = s.polls := rfl
@[simp] theorem recordFault_dir (f : Fault) : (recordFault f s).dir = s.dir := rfl
@[simp] theorem recordFault_pend (f : Fault) : (recordFault f s).pend = s.pend := rfl
@[simp] theorem recordFault_ctl (f : Fault) : (recordFault f s).ctl = s.ctl := rfl
@[simp] theorem recordFault_faulted (f : Fault) : (recordFault f s).faulted = some (s.faulted.getD f) := rfl
@[simp] theorem recordFault_trace (f : Fault) : (recordFault f s).trace = s.trace := rfl
@[simp] theorem recordFault_accesses (f : Fault) : (recordFault f s).accesses = s.accesses := rfl
@[simp] theorem recordFault_inputs (f : Fault) : (recordFault f s).inputs = s.inputs := rfl
@[simp] theorem recordFault_env (f : Fault) : (recordFault f s).env = s.env := rfl
@[simp] theorem recordFault_draws (f : Fault) : (recordFault f s).draws = s.draws := rfl
@[simp] theorem recordFault_hostValue (f : Fault) : (recordFault f s).hostValue = s.hostValue := rfl

/-! `ctlWrite` -/
@[simp] theorem ctlWrite_cfg (r : CtlReg) (v : Byte) : (ctlWrite r v s).cfg = s.cfg := rfl
@[simp] theorem ctlWrite_sla (r : CtlReg) (v : Byte) : (ctlWrite r v s).sla = s.sla := rfl
@[simp] theorem ctlWrite_mah (r : CtlReg) (v : Byte) : (ctlWrite r v s).mah = s.mah := rfl
@[simp] theorem ctlWrite_mal (r : CtlReg) (v : Byte) : (ctlWrite r v s).mal = s.mal := rfl
@[simp] theorem ctlWrite_len (r : CtlReg) (v : Byte) : (ctlWrite r v s).len = s.len := rfl
@[simp] theorem ctlWrite_outcome (r : CtlReg) (v : Byte) : (ctlWrite r v s).outcome = s.outcome := rfl
@[simp] theorem ctlWrite_rateCfg (r : CtlReg) (v : Byte) : (ctlWrite r v s).rateCfg = s.rateCfg := rfl
@[simp] theorem ctlWrite_cmdRej (r : CtlReg) (v : Byte) : (ctlWrite r v s).cmdRej = s.cmdRej := rfl
@[simp] theorem ctlWrite_result (r : CtlReg) (v : Byte) : (ctlWrite r v s).result = s.result := rfl
@[simp] theorem ctlWrite_phase (r : CtlReg) (v : Byte) : (ctlWrite r v s).phase = s.phase := rfl
@[simp] theorem ctlWrite_idx (r : CtlReg) (v : Byte) : (ctlWrite r v s).idx = s.idx := rfl
@[simp] theorem ctlWrite_buf (r : CtlReg) (v : Byte) : (ctlWrite r v s).buf = s.buf := rfl
@[simp] theorem ctlWrite_fsm (r : CtlReg) (v : Byte) : (ctlWrite r v s).fsm = s.fsm := rfl
@[simp] theorem ctlWrite_sub (r : CtlReg) (v : Byte) : (ctlWrite r v s).sub = s.sub := rfl
@[simp] theorem ctlWrite_polls (r : CtlReg) (v : Byte) : (ctlWrite r v s).polls = s.polls := rfl
@[simp] theorem ctlWrite_dir (r : CtlReg) (v : Byte) : (ctlWrite r v s).dir = s.dir := rfl
@[simp] theorem ctlWrite_pend (r : CtlReg) (v : Byte) : (ctlWrite r v s).pend = s.pend := rfl
@[simp] theorem ctlWrite_ctl (r : CtlReg) (v : Byte) : (ctlWrite r v s).ctl = s.ctl.set r v := rfl
@[simp] theorem ctlWrite_faulted (r : CtlReg) (v : Byte) : (ctlWrite r v s).faulted = s.faulted := rfl
@[simp] theorem ctlWrite_trace (r : CtlReg) (v : Byte) : (ctlWrite r v s).trace = s.trace := rfl
@[simp] theorem ctlWrite_accesses (r : CtlReg) (v : Byte) : (ctlWrite r v s).accesses = s.accesses ++ [.write r v] := rfl
@[simp] theorem ctlWrite_inputs (r : CtlReg) (v : Byte) : (ctlWrite r v s).inputs = s.inputs := rfl
@[simp] theorem ctlWrite_env (r : CtlReg) (v : Byte) : (ctlWrite r v s).env = s.env := rfl
@[simp] theorem ctlWrite_draws (r : CtlReg) (v : Byte) : (ctlWrite r v s).draws = s.draws := rfl
@[simp] theorem ctlWrite_hostValue (r : CtlReg) (v : Byte) : (ctlWrite r v s).hostValue = s.hostValue := rfl

/-! `ctlRead` -/
@[simp] theorem ctlRead_cfg (r : CtlReg) : (ctlRead r s).cfg = s.cfg := rfl
@[simp] theorem ctlRead_sla (r : CtlReg) : (ctlRead r s).sla = s.sla := rfl
@[simp] theorem ctlRead_mah (r : CtlReg) : (ctlRead r s).mah = s.mah := rfl
@[simp] theorem ctlRead_mal (r : CtlReg) : (ctlRead r s).mal = s.mal := rfl
@[simp] theorem ctlRead_len (r : CtlReg) : (ctlRead r s).len = s.len := rfl
@[simp] theorem ctlRead_outcome (r : CtlReg) : (ctlRead r s).outcome = s.outcome := rfl
@[simp] theorem ctlRead_rateCfg (r : CtlReg) : (ctlRead r s).rateCfg = s.rateCfg := rfl
@[simp] theorem ctlRead_cmdRej (r : CtlReg) : (ctlRead r s).cmdRej = s.cmdRej := rfl
@[simp] theorem ctlRead_result (r : CtlReg) : (ctlRead r s).result = s.result := rfl
@[simp] theorem ctlRead_phase (r : CtlReg) : (ctlRead r s).phase = s.phase := rfl
@[simp] theorem ctlRead_idx (r : CtlReg) : (ctlRead r s).idx = s.idx := rfl
@[simp] theorem ctlRead_buf (r : CtlReg) : (ctlRead r s).buf = s.buf := rfl
@[simp] theorem ctlRead_fsm (r : CtlReg) : (ctlRead r s).fsm = s.fsm := rfl
@[simp] theorem ctlRead_sub (r : CtlReg) : (ctlRead r s).sub = s.sub := rfl
@[simp] theorem ctlRead_polls (r : CtlReg) : (ctlRead r s).polls = s.polls := rfl
@[simp] theorem ctlRead_dir (r : CtlReg) : (ctlRead r s).dir = s.dir := rfl
@[simp] theorem ctlRead_pend (r : CtlReg) : (ctlRead r s).pend = s.pend := rfl
@[simp] theorem ctlRead_ctl (r : CtlReg) : (ctlRead r s).ctl = s.ctl := rfl
@[simp] theorem ctlRead_faulted (r : CtlReg) : (ctlRead r s).faulted = s.faulted := rfl
@[simp] theorem ctlRead_trace (r : CtlReg) : (ctlRead r s).trace = s.trace := rfl
@[simp] theorem ctlRead_accesses (r : CtlReg) : (ctlRead r s).accesses = s.accesses ++ [.read r (s.ctl.get r)] := rfl
@[simp] theorem ctlRead_inputs (r : CtlReg) : (ctlRead r s).inputs = s.inputs := rfl
@[simp] theorem ctlRead_env (r : CtlReg) : (ctlRead r s).env = s.env := rfl
@[simp] theorem ctlRead_draws (r : CtlReg) : (ctlRead r s).draws = s.draws := rfl
@[simp] theorem ctlRead_hostValue (r : CtlReg) : (ctlRead r s).hostValue = s.hostValue := rfl

/-! `showDraw` -/
@[simp] theorem showDraw_cfg (d : EnvDraw) : (showDraw d s).cfg = s.cfg := rfl
@[simp] theorem showDraw_sla (d : EnvDraw) : (showDraw d s).sla = s.sla := rfl
@[simp] theorem showDraw_mah (d : EnvDraw) : (showDraw d s).mah = s.mah := rfl
@[simp] theorem showDraw_mal (d : EnvDraw) : (showDraw d s).mal = s.mal := rfl
@[simp] theorem showDraw_len (d : EnvDraw) : (showDraw d s).len = s.len := rfl
@[simp] theorem showDraw_outcome (d : EnvDraw) : (showDraw d s).outcome = s.outcome := rfl
@[simp] theorem showDraw_rateCfg (d : EnvDraw) : (showDraw d s).rateCfg = s.rateCfg := rfl
@[simp] theorem showDraw_cmdRej (d : EnvDraw) : (showDraw d s).cmdRej = s.cmdRej := rfl
@[simp] theorem showDraw_result (d : EnvDraw) : (showDraw d s).result = s.result := rfl
@[simp] theorem showDraw_phase (d : EnvDraw) : (showDraw d s).phase = s.phase := rfl
@[simp] theorem showDraw_idx (d : EnvDraw) : (showDraw d s).idx = s.idx := rfl
@[simp] theorem showDraw_buf (d : EnvDraw) : (showDraw d s).buf = s.buf := rfl
@[simp] theorem showDraw_fsm (d : EnvDraw) : (showDraw d s).fsm = s.fsm := rfl
@[simp] theorem showDraw_sub (d : EnvDraw) : (showDraw d s).sub = s.sub := rfl
@[simp] theorem showDraw_polls (d : EnvDraw) : (showDraw d s).polls = s.polls := rfl
@[simp] theorem showDraw_dir (d : EnvDraw) : (showDraw d s).dir = s.dir := rfl
@[simp] theorem showDraw_pend (d : EnvDraw) : (showDraw d s).pend = s.pend := rfl
@[simp] theorem showDraw_ctl (d : EnvDraw) : (showDraw d s).ctl = { s.ctl with control := d.control, status := d.status, data := d.data } := rfl
@[simp] theorem showDraw_faulted (d : EnvDraw) : (showDraw d s).faulted = s.faulted := rfl
@[simp] theorem showDraw_trace (d : EnvDraw) : (showDraw d s).trace = s.trace := rfl
@[simp] theorem showDraw_accesses (d : EnvDraw) : (showDraw d s).accesses = s.accesses := rfl
@[simp] theorem showDraw_inputs (d : EnvDraw) : (showDraw d s).inputs = s.inputs := rfl
@[simp] theorem showDraw_env (d : EnvDraw) : (showDraw d s).env = s.env.tail := rfl
@[simp] theorem showDraw_draws (d : EnvDraw) : (showDraw d s).draws = s.draws + 1 := rfl
@[simp] theorem showDraw_hostValue (d : EnvDraw) : (showDraw d s).hostValue = s.hostValue := rfl

/-! `emit` -/
@[simp] theorem emit_cfg (p : Primitive) : (emit p s).cfg = s.cfg := rfl
@[simp] theorem emit_sla (p : Primitive) : (emit p s).sla = s.sla := rfl
@[simp] theorem emit_mah (p : Primitive) : (emit p s).mah = s.mah := rfl
@[simp] theorem emit_mal (p : Primitive) : (emit p s).mal = s.mal := rfl
@[simp] theorem emit_len (p : Primitive) : (emit p s).len = s.len := rfl
@[simp] theorem emit_outcome (p : Primitive) : (emit p s).outcome = s.outcome := rfl
@[simp] theorem emit_rateCfg (p : Primitive) : (emit p s).rateCfg = s.rateCfg := rfl
@[simp] theorem emit_cmdRej (p : Primitive) : (emit p s).cmdRej = s.cmdRej := rfl
@[simp] theorem emit_result (p : Primitive) : (emit p s).result = s.result := rfl
@[simp] theorem emit_phase (p : Primitive) : (emit p s).phase = s.phase := rfl
@[simp] theorem emit_idx (p : Primitive) : (emit p s).idx = s.idx := rfl
@[simp] theorem emit_buf (p : Primitive) : (emit p s).buf = s.buf := rfl
@[simp] theorem emit_fsm (p : Primitive) : (emit p s).fsm = s.fsm := rfl
@[simp] theorem emit_sub (p : Primitive) : (emit p s).sub = s.sub := rfl
@[simp] theorem emit_polls (p : Primitive) : (emit p s).polls = s.polls := rfl
@[simp] theorem emit_dir (p : Primitive) : (emit p s).dir = s.dir := rfl
@[simp] theorem emit_pend (p : Primitive) : (emit p s).pend = s.pend := rfl
@[simp] theorem emit_ctl (p : Primitive) : (emit p s).ctl = s.ctl := rfl
@[simp] theorem emit_faulted (p : Primitive) : (emit p s).faulted = s.faulted := rfl
@[simp] theorem emit_trace (p : Primitive) : (emit p s).trace = s.trace ++ [.prim p] := rfl
@[simp] theorem emit_accesses (p : Primitive) : (emit p s).accesses = s.accesses := rfl
@[simp] theorem emit_inputs (p : Primitive) : (emit p s).inputs = s.inputs := rfl
@[simp] theorem emit_env (p : Primitive) : (emit p s).env = s.env := rfl
@[simp] theorem emit_draws (p : Primitive) : (emit p s).draws = s.draws := rfl
@[simp] theorem emit_hostValue (p : Primitive) : (emit p s).hostValue = s.hostValue := rfl

/-! `enterWait` -/
@[simp] theorem enterWait_cfg : (enterWait s).cfg = s.cfg := rfl
@[simp] theorem enterWait_sla : (enterWait s).sla = s.sla := rfl
@[simp] theorem enterWait_mah : (enterWait s).mah = s.mah := rfl
@[simp] theorem enterWait_mal : (enterWait s).mal = s.mal := rfl
@[simp] theorem enterWait_len : (enterWait s).len = s.len := rfl
@[simp] theorem enterWait_outcome : (enterWait s).outcome = s.outcome := rfl
@[simp] theorem enterWait_rateCfg : (enterWait s).rateCfg = s.rateCfg := rfl
@[simp] theorem enterWait_cmdRej : (enterWait s).cmdRej = s.cmdRej := rfl
@[simp] theorem enterWait_result : (enterWait s).result = s.result := rfl
@[simp] theorem enterWait_phase : (enterWait s).phase = s.phase := rfl
@[simp] theorem enterWait_idx : (enterWait s).idx = s.idx := rfl
@[simp] theorem enterWait_buf : (enterWait s).buf = s.buf := rfl
@[simp] theorem enterWait_fsm : (enterWait s).fsm = s.fsm := rfl
@[simp] theorem enterWait_sub : (enterWait s).sub = .wait := rfl
@[simp] theorem enterWait_polls : (enterWait s).polls = 0 := rfl
@[simp] theorem enterWait_dir : (enterWait s).dir = s.dir := rfl
@[simp] theorem enterWait_pend : (enterWait s).pend = s.pend := rfl
@[simp] theorem enterWait_ctl : (enterWait s).ctl = s.ctl := rfl
@[simp] theorem enterWait_faulted : (enterWait s).faulted = s.faulted := rfl
@[simp] theorem enterWait_trace : (enterWait s).trace = s.trace := rfl
@[simp] theorem enterWait_accesses : (enterWait s).accesses = s.accesses := rfl
@[simp] theorem enterWait_inputs : (enterWait s).inputs = s.inputs := rfl
@[simp] theorem enterWait_env : (enterWait s).env = s.env := rfl
@[simp] theorem enterWait_draws : (enterWait s).draws = s.draws := rfl
@[simp] theorem enterWait_hostValue : (enterWait s).hostValue = s.hostValue := rfl

/-! `enterPhase` -/
@[simp] theorem enterPhase_cfg (p : Phase) : (enterPhase p s).cfg = s.cfg := rfl
@[simp] theorem enterPhase_sla (p : Phase) : (enterPhase p s).sla = s.sla := rfl
@[simp] theorem enterPhase_mah (p : Phase) : (enterPhase p s).mah = s.mah := rfl
@[simp] theorem enterPhase_mal (p : Phase) : (enterPhase p s).mal = s.mal := rfl
@[simp] theorem enterPhase_len (p : Phase) : (enterPhase p s).len = s.len := rfl
@[simp] theorem enterPhase_outcome (p : Phase) : (enterPhase p s).outcome = s.outcome := rfl
@[simp] theorem enterPhase_rateCfg (p : Phase) : (enterPhase p s).rateCfg = s.rateCfg := rfl
@[simp] theorem enterPhase_cmdRej (p : Phase) : (enterPhase p s).cmdRej = s.cmdRej := rfl
@[simp] theorem enterPhase_result (p : Phase) : (enterPhase p s).result = s.result := rfl
@[simp] theorem enterPhase_phase (p : Phase) : (enterPhase p s).phase = p := rfl
@[simp] theorem enterPhase_idx (p : Phase) : (enterPhase p s).idx = s.idx := rfl
@[simp] theorem enterPhase_buf (p : Phase) : (enterPhase p s).buf = s.buf := rfl
@[simp] theorem enterPhase_fsm (p : Phase) : (enterPhase p s).fsm = p := rfl
@[simp] theorem enterPhase_sub (p : Phase) : (enterPhase p s).sub = .issue := rfl
@[simp] theorem enterPhase_polls (p : Phase) : (enterPhase p s).polls = s.polls := rfl
@[simp] theorem enterPhase_dir (p : Phase) : (enterPhase p s).dir = s.dir := rfl
@[simp] theorem enterPhase_pend (p : Phase) : (enterPhase p s).pend = s.pend := rfl
@[simp] theorem enterPhase_ctl (p : Phase) : (enterPhase p s).ctl = s.ctl := rfl
@[simp] theorem enterPhase_faulted (p : Phase) : (enterPhase p s).faulted = s.faulted := rfl
@[simp] theorem enterPhase_trace (p : Phase) : (enterPhase p s).trace = s.trace := rfl
@[simp] theorem enterPhase_accesses (p : Phase) : (enterPhase p s).accesses = s.accesses := rfl
@[simp] theorem enterPhase_inputs (p : Phase) : (enterPhase p s).inputs = s.inputs := rfl
@[simp] theorem enterPhase_env (p : Phase) : (enterPhase p s).env = s.env := rfl
@[simp] theorem enterPhase_draws (p : Phase) : (enterPhase p s).draws = s.draws := rfl
@[simp] theorem enterPhase_hostValue (p : Phase) : (enterPhase p s).hostValue = s.hostValue := rfl

/-! `toIdle` -/
@[simp] theorem toIdle_cfg (p : Phase) : (toIdle p s).cfg = s.cfg := rfl
@[simp] theorem toIdle_sla (p : Phase) : (toIdle p s).sla = s.sla := rfl
@[simp] theorem toIdle_mah (p : Phase) : (toIdle p s).mah = s.mah := rfl
@[simp] theorem toIdle_mal (p : Phase) : (toIdle p s).mal = s.mal := rfl
@[simp] theorem toIdle_len (p : Phase) : (toIdle p s).len = s.len := rfl
@[simp] theorem toIdle_outcome (p : Phase) : (toIdle p s).outcome = s.outcome := rfl
@[simp] theorem toIdle_rateCfg (p : Phase) : (toIdle p s).rateCfg = s.rateCfg := rfl
@[simp] theorem toIdle_cmdRej (p : Phase) : (toIdle p s).cmdRej = s.cmdRej := rfl
@[simp] theorem toIdle_result (p : Phase) : (toIdle p s).result = s.result := rfl
@[simp] theorem toIdle_phase (p : Phase) : (toIdle p s).phase = p := rfl
@[simp] theorem toIdle_idx (p : Phase) : (toIdle p s).idx = s.idx := rfl
@[simp] theorem toIdle_buf (p : Phase) : (toIdle p s).buf = s.buf := rfl
@[simp] theorem toIdle_fsm (p : Phase) : (toIdle p s).fsm = .idle := rfl
@[simp] theorem toIdle_sub (p : Phase) : (toIdle p s).sub = .issue := rfl
@[simp] theorem toIdle_polls (p : Phase) : (toIdle p s).polls = s.polls := rfl
@[simp] theorem toIdle_dir (p : Phase) : (toIdle p s).dir = s.dir := rfl
@[simp] theorem toIdle_pend (p : Phase) : (toIdle p s).pend = s.pend := rfl
@[simp] theorem toIdle_ctl (p : Phase) : (toIdle p s).ctl = s.ctl := rfl
@[simp] theorem toIdle_faulted (p : Phase) : (toIdle p s).faulted = s.faulted := rfl
@[simp] theorem toIdle_trace (p : Phase) : (toIdle p s).trace = s.trace := rfl
@[simp] theorem toIdle_accesses (p : Phase) : (toIdle p s).accesses = s.accesses := rfl
@[simp] theorem toIdle_inputs (p : Phase) : (toIdle p s).inputs = s.inputs := rfl
@[simp] theorem toIdle_env (p : Phase) : (toIdle p s).env = s.env := rfl
@[simp] theorem toIdle_draws (p : Phase) : (toIdle p s).draws = s.draws := rfl
@[simp] theorem toIdle_hostValue (p : Phase) : (toIdle p s).hostValue = s.hostValue := rfl

/-! `leaveFailPath` -/
@[simp] theorem leaveFailPath_cfg : (leaveFailPath s).cfg = s.cfg := rfl
@[simp] theorem leaveFailPath_sla : (leaveFailPath s).sla = s.sla := rfl
@[simp] theorem leaveFailPath_mah : (leaveFailPath s).mah = s.mah := rfl
@[simp] theorem leaveFailPath_mal : (leaveFailPath s).mal = s.mal := rfl
@[simp] theorem leaveFailPath_len : (leaveFailPath s).len = s.len := rfl
@[simp] theorem leaveFailPath_outcome : (leaveFailPath s).outcome = s.pend.outcome := rfl
@[simp] theorem leaveFailPath_rateCfg : (leaveFailPath s).rateCfg = s.rateCfg := rfl
@[simp] theorem leaveFailPath_cmdRej : (leaveFailPath s).cmdRej = s.cmdRej := rfl
@[simp] theorem leaveFailPath_result : (leaveFailPath s).result = s.result := rfl
@[simp] theorem leaveFailPath_phase : (leaveFailPath s).phase = s.phase := rfl
@[simp] theorem leaveFailPath_idx : (leaveFailPath s).idx = s.idx := rfl
@[simp] theorem leaveFailPath_buf : (leaveFailPath s).buf = s.buf := rfl
@[simp] theorem leaveFailPath_fsm : (leaveFailPath s).fsm = .idle := rfl
@[simp] theorem leaveFailPath_sub : (leaveFailPath s).sub = .issue := rfl
@[simp] theorem leaveFailPath_polls : (leaveFailPath s).polls = s.polls := rfl
@[simp] theorem leaveFailPath_dir : (leaveFailPath s).dir = s.dir := rfl
@[simp] theorem leaveFailPath_pend : (leaveFailPath s).pend = s.pend := rfl
@[simp] theorem leaveFailPath_ctl : (leaveFailPath s).ctl = s.ctl := rfl
@[simp] theorem leaveFailPath_faulted : (leaveFailPath s).faulted = s.faulted := rfl
@[simp] theorem leaveFailPath_trace : (leaveFailPath s).trace = s.trace := rfl
@[simp] theorem leaveFailPath_accesses : (leaveFailPath s).accesses = s.accesses := rfl
@[simp] theorem leaveFailPath_inputs : (leaveFailPath s).inputs = s.inputs := rfl
@[simp] theorem leaveFailPath_env : (leaveFailPath s).env = s.env := rfl
@[simp] theorem leaveFailPath_draws : (leaveFailPath s).draws = s.draws := rfl
@[simp] theorem leaveFailPath_hostValue : (leaveFailPath s).hostValue = s.hostValue := rfl

/-! `advanceIdx` -/
@[simp] theorem advanceIdx_cfg : (advanceIdx s).cfg = s.cfg := rfl
@[simp] theorem advanceIdx_sla : (advanceIdx s).sla = s.sla := rfl
@[simp] theorem advanceIdx_mah : (advanceIdx s).mah = s.mah := rfl
@[simp] theorem advanceIdx_mal : (advanceIdx s).mal = s.mal := rfl
@[simp] theorem advanceIdx_len : (advanceIdx s).len = s.len := rfl
@[simp] theorem advanceIdx_outcome : (advanceIdx s).outcome = s.outcome := rfl
@[simp] theorem advanceIdx_rateCfg : (advanceIdx s).rateCfg = s.rateCfg := rfl
@[simp] theorem advanceIdx_cmdRej : (advanceIdx s).cmdRej = s.cmdRej := rfl
@[simp] theorem advanceIdx_result : (advanceIdx s).result = s.result := rfl
@[simp] theorem advanceIdx_phase : (advanceIdx s).phase = s.phase := rfl
@[simp] theorem advanceIdx_idx : (advanceIdx s).idx = s.idx + 1#8 := rfl
@[simp] theorem advanceIdx_buf : (advanceIdx s).buf = s.buf := rfl
@[simp] theorem advanceIdx_fsm : (advanceIdx s).fsm = s.fsm := rfl
@[simp] theorem advanceIdx_sub : (advanceIdx s).sub = s.sub := rfl
@[simp] theorem advanceIdx_polls : (advanceIdx s).polls = s.polls := rfl
@[simp] theorem advanceIdx_dir : (advanceIdx s).dir = s.dir := rfl
@[simp] theorem advanceIdx_pend : (advanceIdx s).pend = s.pend := rfl
@[simp] theorem advanceIdx_ctl : (advanceIdx s).ctl = s.ctl := rfl
@[simp] theorem advanceIdx_faulted : (advanceIdx s).faulted = s.faulted := rfl
@[simp] theorem advanceIdx_trace : (advanceIdx s).trace = s.trace := rfl
@[simp] theorem advanceIdx_accesses : (advanceIdx s).accesses = s.accesses := rfl
@[simp] theorem advanceIdx_inputs : (advanceIdx s).inputs = s.inputs := rfl
@[simp] theorem advanceIdx_env : (advanceIdx s).env = s.env := rfl
@[simp] theorem advanceIdx_draws : (advanceIdx s).draws = s.draws := rfl
@[simp] theorem advanceIdx_hostValue : (advanceIdx s).hostValue = s.hostValue := rfl

/-! `storeReceived` -/
@[simp] theorem storeReceived_cfg : (storeReceived s).cfg = s.cfg := rfl
@[simp] theorem storeReceived_sla : (storeReceived s).sla = s.sla := rfl
@[simp] theorem storeReceived_mah : (storeReceived s).mah = s.mah := rfl
@[simp] theorem storeReceived_mal : (storeReceived s).mal = s.mal := rfl
@[simp] theorem storeReceived_len : (storeReceived s).len = s.len := rfl
@[simp] theorem storeReceived_outcome : (storeReceived s).outcome = s.outcome := rfl
@[simp] theorem storeReceived_rateCfg : (storeReceived s).rateCfg = s.rateCfg := rfl
@[simp] theorem storeReceived_cmdRej : (storeReceived s).cmdRej = s.cmdRej := rfl
@[simp] theorem storeReceived_result : (storeReceived s).result = s.result := rfl
@[simp] theorem storeReceived_phase : (storeReceived s).phase = s.phase := rfl
@[simp] theorem storeReceived_idx : (storeReceived s).idx = s.idx := rfl
@[simp] theorem storeReceived_buf : (storeReceived s).buf = s.buf.write s.bufIndex s.ctl.data := rfl
@[simp] theorem storeReceived_fsm : (storeReceived s).fsm = s.fsm := rfl
@[simp] theorem storeReceived_sub : (storeReceived s).sub = s.sub := rfl
@[simp] theorem storeReceived_polls : (storeReceived s).polls = s.polls := rfl
@[simp] theorem storeReceived_dir : (storeReceived s).dir = s.dir := rfl
@[simp] theorem storeReceived_pend : (storeReceived s).pend = s.pend := rfl
@[simp] theorem storeReceived_ctl : (storeReceived s).ctl = s.ctl := rfl
@[simp] theorem storeReceived_faulted : (storeReceived s).faulted = s.faulted := rfl
@[simp] theorem storeReceived_trace : (storeReceived s).trace = s.trace := rfl
@[simp] theorem storeReceived_accesses : (storeReceived s).accesses = s.accesses := rfl
@[simp] theorem storeReceived_inputs : (storeReceived s).inputs = s.inputs := rfl
@[simp] theorem storeReceived_env : (storeReceived s).env = s.env := rfl
@[simp] theorem storeReceived_draws : (storeReceived s).draws = s.draws := rfl
@[simp] theorem storeReceived_hostValue : (storeReceived s).hostValue = s.hostValue := rfl

/-! `returnValue` -/
@[simp] theorem returnValue_cfg (v : Byte) : (returnValue v s).cfg = s.cfg := rfl
@[simp] theorem returnValue_sla (v : Byte) : (returnValue v s).sla = s.sla := rfl
@[simp] theorem returnValue_mah (v : Byte) : (returnValue v s).mah = s.mah := rfl
@[simp] theorem returnValue_mal (v : Byte) : (returnValue v s).mal = s.mal := rfl
@[simp] theorem returnValue_len (v : Byte) : (returnValue v s).len = s.len := rfl
@[simp] theorem returnValue_outcome (v : Byte) : (returnValue v s).outcome = s.outcome := rfl
@[simp] theorem returnValue_rateCfg (v : Byte) : (returnValue v s).rateCfg = s.rateCfg := rfl
@[simp] theorem returnValue_cmdRej (v : Byte) : (returnValue v s).cmdRej = s.cmdRej := rfl
@[simp] theorem returnValue_result (v : Byte) : (returnValue v s).result = s.result := rfl
@[simp] theorem returnValue_phase (v : Byte) : (returnValue v s).phase = s.phase := rfl
@[simp] theorem returnValue_idx (v : Byte) : (returnValue v s).idx = s.idx := rfl
@[simp] theorem returnValue_buf (v : Byte) : (returnValue v s).buf = s.buf := rfl
@[simp] theorem returnValue_fsm (v : Byte) : (returnValue v s).fsm = s.fsm := rfl
@[simp] theorem returnValue_sub (v : Byte) : (returnValue v s).sub = s.sub := rfl
@[simp] theorem returnValue_polls (v : Byte) : (returnValue v s).polls = s.polls := rfl
@[simp] theorem returnValue_dir (v : Byte) : (returnValue v s).dir = s.dir := rfl
@[simp] theorem returnValue_pend (v : Byte) : (returnValue v s).pend = s.pend := rfl
@[simp] theorem returnValue_ctl (v : Byte) : (returnValue v s).ctl = s.ctl := rfl
@[simp] theorem returnValue_faulted (v : Byte) : (returnValue v s).faulted = s.faulted := rfl
@[simp] theorem returnValue_trace (v : Byte) : (returnValue v s).trace = s.trace := rfl
@[simp] theorem returnValue_accesses (v : Byte) : (returnValue v s).accesses = s.accesses := rfl
@[simp] theorem returnValue_inputs (v : Byte) : (returnValue v s).inputs = s.inputs := rfl
@[simp] theorem returnValue_env (v : Byte) : (returnValue v s).env = s.env := rfl
@[simp] theorem returnValue_draws (v : Byte) : (returnValue v s).draws = s.draws := rfl
@[simp] theorem returnValue_hostValue (v : Byte) : (returnValue v s).hostValue = v := rfl

/-! `popInput` -/
@[simp] theorem popInput_cfg : (popInput s).cfg = s.cfg := rfl
@[simp] theorem popInput_sla : (popInput s).sla = s.sla := rfl
@[simp] theorem popInput_mah : (popInput s).mah = s.mah := rfl
@[simp] theorem popInput_mal : (popInput s).mal = s.mal := rfl
@[simp] theorem popInput_len : (popInput s).len = s.len := rfl
@[simp] theorem popInput_outcome : (popInput s).outcome = s.outcome := rfl
@[simp] theorem popInput_rateCfg : (popInput s).rateCfg = s.rateCfg := rfl
@[simp] theorem popInput_cmdRej : (popInput s).cmdRej = s.cmdRej := rfl
@[simp] theorem popInput_result : (popInput s).result = s.result := rfl
@[simp] theorem popInput_phase : (popInput s).phase = s.phase := rfl
@[simp] theorem popInput_idx : (popInput s).idx = s.idx := rfl
@[simp] theorem popInput_buf : (popInput s).buf = s.buf := rfl
@[simp] theorem popInput_fsm : (popInput s).fsm = s.fsm := rfl
@[simp] theorem popInput_sub : (popInput s).sub = s.sub := rfl
@[simp] theorem popInput_polls : (popInput s).polls = s.polls := rfl
@[simp] theorem popInput_dir : (popInput s).dir = s.dir := rfl
@[simp] theorem popInput_pend : (popInput s).pend = s.pend := rfl
@[simp] theorem popInput_ctl : (popInput s).ctl = s.ctl := rfl
@[simp] theorem popInput_faulted : (popInput s).faulted = s.faulted := rfl
@[simp] theorem popInput_trace : (popInput s).trace = s.trace := rfl
@[simp] theorem popInput_accesses : (popInput s).accesses = s.accesses := rfl
@[simp] theorem popInput_inputs : (popInput s).inputs = s.inputs.tail := rfl
@[simp] theorem popInput_env : (popInput s).env = s.env := rfl
@[simp] theorem popInput_draws : (popInput s).draws = s.draws := rfl
@[simp] theorem popInput_hostValue : (popInput s).hostValue = s.hostValue := rfl

end Sys2Proof.Machine
end

