-- ==== Sys2Proof/Laws/Ops.lean ====
section
/-! SUPPORT. For each shared operation, once, everything it can do. -/

namespace Sys2Proof.Machine

variable (s : State)

/-! ### Views that read fields -/

theorem busy_iff : s.busy = true ↔ s.fsm ≠ .idle := by simp [State.busy]

theorem not_busy_iff : s.busy = false ↔ s.fsm = .idle := by simp [State.busy]

/-! ### The fault record -/

/-- A fault once recorded stays the recorded one. -/
theorem recordFault_keeps (f g : Fault) (h : s.faulted = some g) :
    (recordFault f s).faulted = some g := by simp [h]

/-! ### The primitives' writes touch only the controller and the log of accesses -/

@[simp] theorem primitiveWrites_cfg (p : Primitive) : (primitiveWrites p s).cfg = s.cfg := by
  cases p <;> simp [primitiveWrites]; split <;> simp
@[simp] theorem primitiveWrites_sla (p : Primitive) : (primitiveWrites p s).sla = s.sla := by
  cases p <;> simp [primitiveWrites]; split <;> simp
@[simp] theorem primitiveWrites_mah (p : Primitive) : (primitiveWrites p s).mah = s.mah := by
  cases p <;> simp [primitiveWrites]; split <;> simp
@[simp] theorem primitiveWrites_mal (p : Primitive) : (primitiveWrites p s).mal = s.mal := by
  cases p <;> simp [primitiveWrites]; split <;> simp
@[simp] theorem primitiveWrites_len (p : Primitive) : (primitiveWrites p s).len = s.len := by
  cases p <;> simp [primitiveWrites]; split <;> simp
@[simp] theorem primitiveWrites_outcome (p : Primitive) : (primitiveWrites p s).outcome = s.outcome := by
  cases p <;> simp [primitiveWrites]; split <;> simp
@[simp] theorem primitiveWrites_rateCfg (p : Primitive) : (primitiveWrites p s).rateCfg = s.rateCfg := by
  cases p <;> simp [primitiveWrites]; split <;> simp
@[simp] theorem primitiveWrites_cmdRej (p : Primitive) : (primitiveWrites p s).cmdRej = s.cmdRej := by
  cases p <;> simp [primitiveWrites]; split <;> simp
@[simp] theorem primitiveWrites_result (p : Primitive) : (primitiveWrites p s).result = s.result := by
  cases p <;> simp [primitiveWrites]; split <;> simp
@[simp] theorem primitiveWrites_phase (p : Primitive) : (primitiveWrites p s).phase = s.phase := by
  cases p <;> simp [primitiveWrites]; split <;> simp
@[simp] theorem primitiveWrites_idx (p : Primitive) : (primitiveWrites p s).idx = s.idx := by
  cases p <;> simp [primitiveWrites]; split <;> simp
@[simp] theorem primitiveWrites_buf (p : Primitive) : (primitiveWrites p s).buf = s.buf := by
  cases p <;> simp [primitiveWrites]; split <;> simp
@[simp] theorem primitiveWrites_fsm (p : Primitive) : (primitiveWrites p s).fsm = s.fsm := by
  cases p <;> simp [primitiveWrites]; split <;> simp
@[simp] theorem primitiveWrites_sub (p : Primitive) : (primitiveWrites p s).sub = s.sub := by
  cases p <;> simp [primitiveWrites]; split <;> simp
@[simp] theorem primitiveWrites_polls (p : Primitive) : (primitiveWrites p s).polls = s.polls := by
  cases p <;> simp [primitiveWrites]; split <;> simp
@[simp] theorem primitiveWrites_dir (p : Primitive) : (primitiveWrites p s).dir = s.dir := by
  cases p <;> simp [primitiveWrites]; split <;> simp
@[simp] theorem primitiveWrites_pend (p : Primitive) : (primitiveWrites p s).pend = s.pend := by
  cases p <;> simp [primitiveWrites]; split <;> simp
@[simp] theorem primitiveWrites_faulted (p : Primitive) : (primitiveWrites p s).faulted = s.faulted := by
  cases p <;> simp [primitiveWrites]; split <;> simp
@[simp] theorem primitiveWrites_trace (p : Primitive) : (primitiveWrites p s).trace = s.trace := by
  cases p <;> simp [primitiveWrites]; split <;> simp
@[simp] theorem primitiveWrites_inputs (p : Primitive) : (primitiveWrites p s).inputs = s.inputs := by
  cases p <;> simp [primitiveWrites]; split <;> simp
@[simp] theorem primitiveWrites_env (p : Primitive) : (primitiveWrites p s).env = s.env := by
  cases p <;> simp [primitiveWrites]; split <;> simp
@[simp] theorem primitiveWrites_draws (p : Primitive) : (primitiveWrites p s).draws = s.draws := by
  cases p <;> simp [primitiveWrites]; split <;> simp
@[simp] theorem primitiveWrites_hostValue (p : Primitive) : (primitiveWrites p s).hostValue = s.hostValue := by
  cases p <;> simp [primitiveWrites]; split <;> simp

@[simp] theorem issuePrimitive_cfg (p : Primitive) : (issuePrimitive p s).cfg = s.cfg := by
  simp [issuePrimitive]
@[simp] theorem issuePrimitive_sla (p : Primitive) : (issuePrimitive p s).sla = s.sla := by
  simp [issuePrimitive]
@[simp] theorem issuePrimitive_mah (p : Primitive) : (issuePrimitive p s).mah = s.mah := by
  simp [issuePrimitive]
@[simp] theorem issuePrimitive_mal (p : Primitive) : (issuePrimitive p s).mal = s.mal := by
  simp [issuePrimitive]
@[simp] theorem issuePrimitive_len (p : Primitive) : (issuePrimitive p s).len = s.len := by
  simp [issuePrimitive]
@[simp] theorem issuePrimitive_outcome (p : Primitive) : (issuePrimitive p s).outcome = s.outcome := by
  simp [issuePrimitive]
@[simp] theorem issuePrimitive_rateCfg (p : Primitive) : (issuePrimitive p s).rateCfg = s.rateCfg := by
  simp [issuePrimitive]
@[simp] theorem issuePrimitive_cmdRej (p : Primitive) : (issuePrimitive p s).cmdRej = s.cmdRej := by
  simp [issuePrimitive]
@[simp] theorem issuePrimitive_result (p : Primitive) : (issuePrimitive p s).result = s.result := by
  simp [issuePrimitive]
@[simp] theorem issuePrimitive_phase (p : Primitive) : (issuePrimitive p s).phase = s.phase := by
  simp [issuePrimitive]
@[simp] theorem issuePrimitive_idx (p : Primitive) : (issuePrimitive p s).idx = s.idx := by
  simp [issuePrimitive]
@[simp] theorem issuePrimitive_buf (p : Primitive) : (issuePrimitive p s).buf = s.buf := by
  simp [issuePrimitive]
@[simp] theorem issuePrimitive_fsm (p : Primitive) : (issuePrimitive p s).fsm = s.fsm := by
  simp [issuePrimitive]
@[simp] theorem issuePrimitive_sub (p : Primitive) : (issuePrimitive p s).sub = s.sub := by
  simp [issuePrimitive]
@[simp] theorem issuePrimitive_polls (p : Primitive) : (issuePrimitive p s).polls = s.polls := by
  simp [issuePrimitive]
@[simp] theorem issuePrimitive_dir (p : Primitive) : (issuePrimitive p s).dir = s.dir := by
  simp [issuePrimitive]
@[simp] theorem issuePrimitive_pend (p : Primitive) : (issuePrimitive p s).pend = s.pend := by
  simp [issuePrimitive]
@[simp] theorem issuePrimitive_faulted (p : Primitive) : (issuePrimitive p s).faulted = s.faulted := by
  simp [issuePrimitive]
@[simp] theorem issuePrimitive_trace (p : Primitive) : (issuePrimitive p s).trace = s.trace ++ [.prim p] := by
  simp [issuePrimitive]
@[simp] theorem issuePrimitive_inputs (p : Primitive) : (issuePrimitive p s).inputs = s.inputs := by
  simp [issuePrimitive]
@[simp] theorem issuePrimitive_env (p : Primitive) : (issuePrimitive p s).env = s.env := by
  simp [issuePrimitive]
@[simp] theorem issuePrimitive_draws (p : Primitive) : (issuePrimitive p s).draws = s.draws := by
  simp [issuePrimitive]
@[simp] theorem issuePrimitive_hostValue (p : Primitive) : (issuePrimitive p s).hostValue = s.hostValue := by
  simp [issuePrimitive]

/-! ### The fail path -/

/-- The two ways into the fail path (R220). -/
theorem failPath_cases (code : Byte) (q : Pend) (p : Phase) :
    (s.cfg.stopOnFail = true ∧ failPath code q p s =
      { s with result := code, phase := p, pend := q, sub := .issue, fsm := .failStop }) ∨
    (s.cfg.stopOnFail = false ∧ failPath code q p s =
      { s with result := code, phase := p, pend := q, sub := .issue, outcome := q.outcome,
               fsm := .idle }) := by
  cases h : s.cfg.stopOnFail <;> simp [failPath, h]

@[simp] theorem failPath_cfg (code : Byte) (q : Pend) (p : Phase) :
    (failPath code q p s).cfg = s.cfg := by
  unfold failPath; simp only []; split <;> rfl
@[simp] theorem failPath_sla (code : Byte) (q : Pend) (p : Phase) :
    (failPath code q p s).sla = s.sla := by
  unfold failPath; simp only []; split <;> rfl
@[simp] theorem failPath_mah (code : Byte) (q : Pend) (p : Phase) :
    (failPath code q p s).mah = s.mah := by
  unfold failPath; simp only []; split <;> rfl
@[simp] theorem failPath_mal (code : Byte) (q : Pend) (p : Phase) :
    (failPath code q p s).mal = s.mal := by
  unfold failPath; simp only []; split <;> rfl
@[simp] theorem failPath_len (code : Byte) (q : Pend) (p : Phase) :
    (failPath code q p s).len = s.len := by
  unfold failPath; simp only []; split <;> rfl
@[simp] theorem failPath_rateCfg (code : Byte) (q : Pend) (p : Phase) :
    (failPath code q p s).rateCfg = s.rateCfg := by
  unfold failPath; simp only []; split <;> rfl
@[simp] theorem failPath_cmdRej (code : Byte) (q : Pend) (p : Phase) :
    (failPath code q p s).cmdRej = s.cmdRej := by
  unfold failPath; simp only []; split <;> rfl
@[simp] theorem failPath_result (code : Byte) (q : Pend) (p : Phase) :
    (failPath code q p s).result = code := by
  unfold failPath; simp only []; split <;> rfl
@[simp] theorem failPath_phase (code : Byte) (q : Pend) (p : Phase) :
    (failPath code q p s).phase = p := by
  unfold failPath; simp only []; split <;> rfl
@[simp] theorem failPath_idx (code : Byte) (q : Pend) (p : Phase) :
    (failPath code q p s).idx = s.idx := by
  unfold failPath; simp only []; split <;> rfl
@[simp] theorem failPath_buf (code : Byte) (q : Pend) (p : Phase) :
    (failPath code q p s).buf = s.buf := by
  unfold failPath; simp only []; split <;> rfl
@[simp] theorem failPath_sub (code : Byte) (q : Pend) (p : Phase) :
    (failPath code q p s).sub = .issue := by
  unfold failPath; simp only []; split <;> rfl
@[simp] theorem failPath_polls (code : Byte) (q : Pend) (p : Phase) :
    (failPath code q p s).polls = s.polls := by
  unfold failPath; simp only []; split <;> rfl
@[simp] theorem failPath_dir (code : Byte) (q : Pend) (p : Phase) :
    (failPath code q p s).dir = s.dir := by
  unfold failPath; simp only []; split <;> rfl
@[simp] theorem failPath_pend (code : Byte) (q : Pend) (p : Phase) :
    (failPath code q p s).pend = q := by
  unfold failPath; simp only []; split <;> rfl
@[simp] theorem failPath_ctl (code : Byte) (q : Pend) (p : Phase) :
    (failPath code q p s).ctl = s.ctl := by
  unfold failPath; simp only []; split <;> rfl
@[simp] theorem failPath_faulted (code : Byte) (q : Pend) (p : Phase) :
    (failPath code q p s).faulted = s.faulted := by
  unfold failPath; simp only []; split <;> rfl
@[simp] theorem failPath_trace (code : Byte) (q : Pend) (p : Phase) :
    (failPath code q p s).trace = s.trace := by
  unfold failPath; simp only []; split <;> rfl
@[simp] theorem failPath_accesses (code : Byte) (q : Pend) (p : Phase) :
    (failPath code q p s).accesses = s.accesses := by
  unfold failPath; simp only []; split <;> rfl
@[simp] theorem failPath_inputs (code : Byte) (q : Pend) (p : Phase) :
    (failPath code q p s).inputs = s.inputs := by
  unfold failPath; simp only []; split <;> rfl
@[simp] theorem failPath_env (code : Byte) (q : Pend) (p : Phase) :
    (failPath code q p s).env = s.env := by
  unfold failPath; simp only []; split <;> rfl
@[simp] theorem failPath_draws (code : Byte) (q : Pend) (p : Phase) :
    (failPath code q p s).draws = s.draws := by
  unfold failPath; simp only []; split <;> rfl
@[simp] theorem failPath_hostValue (code : Byte) (q : Pend) (p : Phase) :
    (failPath code q p s).hostValue = s.hostValue := by
  unfold failPath; simp only []; split <;> rfl

theorem failPath_fsm (code : Byte) (q : Pend) (p : Phase) :
    (failPath code q p s).fsm = if s.cfg.stopOnFail then .failStop else .idle := by
  unfold failPath; simp only []; split <;> simp_all

theorem failPath_outcome (code : Byte) (q : Pend) (p : Phase) :
    (failPath code q p s).outcome = if s.cfg.stopOnFail then s.outcome else q.outcome := by
  unfold failPath; simp only []; split <;> simp_all

/-! ### The validator -/

/-- The validator succeeds on the expected code and on nothing else (R175). -/
theorem validate_cases (p : Phase) (e : Byte) (f : State → State) :
    (s.maskedStatus = e ∧ validate p e f s = f s) ∨
    (s.maskedStatus ≠ e ∧ validate p e f s = failPath s.maskedStatus .failed p s) := by
  by_cases h : s.maskedStatus = e <;> simp [validate, h]

/-! ### The poll -/

/-- What one poll does (R145): it completes the phase, counts a miss, or times out. -/
theorem pollWith_cases (d : EnvDraw) (p : Phase) :
    (d.completes s.cfg = true ∧
      pollWith d p s = completePhase p (ctlRead .control (showDraw d s))) ∨
    (d.completes s.cfg = false ∧ s.cfg.pollLimit ≠ some (s.polls + 1) ∧
      pollWith d p s = { ctlRead .control (showDraw d s) with polls := s.polls + 1 }) ∨
    (d.completes s.cfg = false ∧ s.cfg.pollLimit = some (s.polls + 1) ∧
      pollWith d p s = failPath s.cfg.timeoutCode .timedOut p
        { ctlRead .control (showDraw d s) with polls := s.polls + 1 }) := by
  cases h : d.completes s.cfg
  · by_cases hl : s.cfg.pollLimit = some (s.polls + 1)
    · right; right; simp [pollWith, missedPoll, h, hl]
    · right; left; simp [pollWith, missedPoll, h, hl]
  · left; simp [pollWith, h]

/-! ### A BLOCK step of a phase -/

/-- The ISSUE step of a waiting primitive (R142). -/
theorem runPhase_issue_waits (p : Phase) (q : Primitive) (h : s.sub = .issue)
    (hq : q.waits = true) : runPhase p q s = enterWait (issuePrimitive q s) := by
  simp [runPhase, h, hq]

/-- A primitive that a phase ends does not wait (R142). -/
theorem waits_of_endedBy {p : Phase} {q : Primitive} (hq : q.endedBy p = true) :
    q.waits = false := by
  cases q <;> simp_all [Primitive.endedBy, Primitive.waits]

/-- Only the four phases that do not wait end a primitive (R141, R147). -/
theorem phase_of_endedBy {p : Phase} {q : Primitive} (hq : q.endedBy p = true) :
    p ∈ [Phase.config, .stop, .failStop, .busStop] := by
  cases q <;> simp_all [Primitive.endedBy]

/-- The only step of a primitive that does not wait, in a phase that issues it (R142). -/
theorem runPhase_issue_ends (p : Phase) (q : Primitive) (h : s.sub = .issue)
    (hq : q.endedBy p = true) : runPhase p q s = finishPhase p (issuePrimitive q s) := by
  simp [runPhase, h, hq, waits_of_endedBy hq]

/-- A primitive that does not wait, in a phase that never issues it: only issued (log entry 11). -/
theorem runPhase_issue_only (p : Phase) (q : Primitive) (h : s.sub = .issue)
    (hw : q.waits = false) (hq : q.endedBy p = false) : runPhase p q s = issuePrimitive q s := by
  simp [runPhase, h, hw, hq]

/-- A WAIT step (R145). -/
theorem runPhase_wait (p : Phase) (q : Primitive) (h : s.sub = .wait) :
    runPhase p q s = poll p s := by
  simp [runPhase, h]

/-! ### Commands -/

/-- A CMD write while BUSY = 1 is rejected (R251). -/
theorem whenIdle_busy (f : State → State) (h : s.busy = true) : whenIdle f s = reject s := by
  simp [whenIdle, h]

/-- A CMD write while BUSY = 0 is decoded (R240). -/
theorem whenIdle_idle (f : State → State) (h : s.busy = false) : whenIdle f s = f s := by
  simp [whenIdle, h]

/-- A TRANSFER while BUSY = 0 is rejected or accepted (R250, R241). -/
theorem startTransfer_cases (d : Direction) :
    (s.sla.getLsbD 0 = true ∧ startTransfer d s = reject s) ∨
    (s.sla.getLsbD 0 = false ∧ startTransfer d s = acceptTransfer d s) := by
  cases h : s.sla.getLsbD 0 <;> simp only [startTransfer, h] <;> simp

/-! ### exec, arm by arm -/

theorem exec_nop : exec .nop s = execNop s := rfl
theorem exec_configureRate : exec .configureRate s = execConfigureRate s := rfl
theorem exec_transferWrite : exec .transferWrite s = execTransferWrite s := rfl
theorem exec_transferRead : exec .transferRead s = execTransferRead s := rfl
theorem exec_stopBus : exec .stopBus s = execStopBus s := rfl
theorem exec_reservedOp5 : exec .reservedOp5 s = execReservedOp5 s := rfl
theorem exec_reservedOp6 : exec .reservedOp6 s = execReservedOp6 s := rfl
theorem exec_reservedOp7 : exec .reservedOp7 s = execReservedOp7 s := rfl
theorem exec_reservedRsv (rsv : BitVec 5) (op : BitVec 3) : exec (.reservedRsv rsv op) s = execReservedRsv rsv op s := rfl
theorem exec_start : exec .start s = execStart s := rfl
theorem exec_stop : exec .stop s = execStop s := rfl
theorem exec_tx (b : Byte) : exec (.tx b) s = execTx b s := rfl
theorem exec_rxAck : exec .rxAck s = execRxAck s := rfl
theorem exec_rxNack : exec .rxNack s = execRxNack s := rfl
theorem exec_setRate (d : Byte) : exec (.setRate d) s = execSetRate d s := rfl
theorem exec_addrWriteByte (a : BitVec 7) : exec (.addrWriteByte a) s = execAddrWriteByte a s := rfl
theorem exec_addrReadByte (a : BitVec 7) : exec (.addrReadByte a) s = execAddrReadByte a s := rfl
theorem exec_startSent (low : BitVec 3) : exec (.startSent low) s = execStartSent low s := rfl
theorem exec_addrAckWrite (low : BitVec 3) : exec (.addrAckWrite low) s = execAddrAckWrite low s := rfl
theorem exec_addrAckRead (low : BitVec 3) : exec (.addrAckRead low) s = execAddrAckRead low s := rfl
theorem exec_dataAckWrite (low : BitVec 3) : exec (.dataAckWrite low) s = execDataAckWrite low s := rfl
theorem exec_dataAckRead (low : BitVec 3) : exec (.dataAckRead low) s = execDataAckRead low s := rfl
theorem exec_dataNackRead (low : BitVec 3) : exec (.dataNackRead low) s = execDataNackRead low s := rfl
theorem exec_phIdle : exec .phIdle s = execPhIdle s := rfl
theorem exec_phConfig : exec .phConfig s = execPhConfig s := rfl
theorem exec_phStart : exec .phStart s = execPhStart s := rfl
theorem exec_phAddrW : exec .phAddrW s = execPhAddrW s := rfl
theorem exec_phMemH : exec .phMemH s = execPhMemH s := rfl
theorem exec_phMemL : exec .phMemL s = execPhMemL s := rfl
theorem exec_phRestart : exec .phRestart s = execPhRestart s := rfl
theorem exec_phAddrR : exec .phAddrR s = execPhAddrR s := rfl
theorem exec_phReadData : exec .phReadData s = execPhReadData s := rfl
theorem exec_phWriteData : exec .phWriteData s = execPhWriteData s := rfl
theorem exec_phStop : exec .phStop s = execPhStop s := rfl
theorem exec_phFailStop : exec .phFailStop s = execPhFailStop s := rfl
theorem exec_phBusStop : exec .phBusStop s = execPhBusStop s := rfl
theorem exec_hostWrite (off : Nat) (data : Byte) : exec (.hostWrite off data) s = execHostWrite off data s := rfl
theorem exec_hostRead (off : Nat) : exec (.hostRead off) s = execHostRead off s := rfl

end Sys2Proof.Machine
end

