-- ==== Sys2Proof/Laws/PerInstr.lean ====
section
/-! SUPPORT. Statements made per instruction. EncodedSize: the encoder gives an instruction the number
of bytes its row has (R124: every word is one byte; a TX word is followed by its operand byte, and a
HOST access is a triple, R122). -/

namespace Sys2Proof.Laws

/-- The number of bytes of an instruction. -/
def EncodedSize.bytes : Instr → Nat
  | .tx _ => 2
  | .hostWrite _ _ => 3
  | .hostRead _ => 2
  | _ => 1

/-- Whatever the parameters, the encoding of `i` has the size of its row. -/
def EncodedSize.Statement (i : Instr) : Prop :=
  ∀ c : Config, (encode c i).length = EncodedSize.bytes i

theorem EncodedSize.nop : EncodedSize.Statement .nop := fun _ => rfl
theorem EncodedSize.configureRate : EncodedSize.Statement .configureRate := fun _ => rfl
theorem EncodedSize.transferWrite : EncodedSize.Statement .transferWrite := fun _ => rfl
theorem EncodedSize.transferRead : EncodedSize.Statement .transferRead := fun _ => rfl
theorem EncodedSize.stopBus : EncodedSize.Statement .stopBus := fun _ => rfl
theorem EncodedSize.reservedOp5 : EncodedSize.Statement .reservedOp5 := fun _ => rfl
theorem EncodedSize.reservedOp6 : EncodedSize.Statement .reservedOp6 := fun _ => rfl
theorem EncodedSize.reservedOp7 : EncodedSize.Statement .reservedOp7 := fun _ => rfl
theorem EncodedSize.reservedRsv (rsv : BitVec 5) (op : BitVec 3) : EncodedSize.Statement (.reservedRsv rsv op) := fun _ => rfl
theorem EncodedSize.start : EncodedSize.Statement .start := fun _ => rfl
theorem EncodedSize.stop : EncodedSize.Statement .stop := fun _ => rfl
theorem EncodedSize.tx (b : Byte) : EncodedSize.Statement (.tx b) := fun _ => rfl
theorem EncodedSize.rxAck : EncodedSize.Statement .rxAck := fun _ => rfl
theorem EncodedSize.rxNack : EncodedSize.Statement .rxNack := fun _ => rfl
theorem EncodedSize.setRate (d : Byte) : EncodedSize.Statement (.setRate d) := fun _ => rfl
theorem EncodedSize.addrWriteByte (a : BitVec 7) : EncodedSize.Statement (.addrWriteByte a) := fun _ => rfl
theorem EncodedSize.addrReadByte (a : BitVec 7) : EncodedSize.Statement (.addrReadByte a) := fun _ => rfl
theorem EncodedSize.startSent (low : BitVec 3) : EncodedSize.Statement (.startSent low) := fun _ => rfl
theorem EncodedSize.addrAckWrite (low : BitVec 3) : EncodedSize.Statement (.addrAckWrite low) := fun _ => rfl
theorem EncodedSize.addrAckRead (low : BitVec 3) : EncodedSize.Statement (.addrAckRead low) := fun _ => rfl
theorem EncodedSize.dataAckWrite (low : BitVec 3) : EncodedSize.Statement (.dataAckWrite low) := fun _ => rfl
theorem EncodedSize.dataAckRead (low : BitVec 3) : EncodedSize.Statement (.dataAckRead low) := fun _ => rfl
theorem EncodedSize.dataNackRead (low : BitVec 3) : EncodedSize.Statement (.dataNackRead low) := fun _ => rfl
theorem EncodedSize.phIdle : EncodedSize.Statement .phIdle := fun _ => rfl
theorem EncodedSize.phConfig : EncodedSize.Statement .phConfig := fun _ => rfl
theorem EncodedSize.phStart : EncodedSize.Statement .phStart := fun _ => rfl
theorem EncodedSize.phAddrW : EncodedSize.Statement .phAddrW := fun _ => rfl
theorem EncodedSize.phMemH : EncodedSize.Statement .phMemH := fun _ => rfl
theorem EncodedSize.phMemL : EncodedSize.Statement .phMemL := fun _ => rfl
theorem EncodedSize.phRestart : EncodedSize.Statement .phRestart := fun _ => rfl
theorem EncodedSize.phAddrR : EncodedSize.Statement .phAddrR := fun _ => rfl
theorem EncodedSize.phReadData : EncodedSize.Statement .phReadData := fun _ => rfl
theorem EncodedSize.phWriteData : EncodedSize.Statement .phWriteData := fun _ => rfl
theorem EncodedSize.phStop : EncodedSize.Statement .phStop := fun _ => rfl
theorem EncodedSize.phFailStop : EncodedSize.Statement .phFailStop := fun _ => rfl
theorem EncodedSize.phBusStop : EncodedSize.Statement .phBusStop := fun _ => rfl
theorem EncodedSize.hostWrite (off : Nat) (data : Byte) : EncodedSize.Statement (.hostWrite off data) := fun _ => rfl
theorem EncodedSize.hostRead (off : Nat) : EncodedSize.Statement (.hostRead off) := fun _ => rfl

end Sys2Proof.Laws
end

