-- ==== Sys2Proof/Laws/Step.lean ====
section
/-! SUPPORT. What a step can be: the inversion lemmas of step, of a turn and of HOST's accesses. -/

namespace Sys2Proof.Machine

variable {s t : State}

/-- The phase codes decode to the phase rows. -/
@[simp] theorem decode_phase_code (c : Config) (p : Phase) :
    decode c .phase [p.code] = .ok (phaseInstr p) := by cases p <;> rfl

/-- A turn of the BLOCK runs the row of its phase. -/
theorem blockTurn_eq (s : State) : blockTurn s = exec (phaseInstr s.fsm) s := by
  simp [blockTurn]

/-- A step that gives a state checked the configuration and met no recorded fault. -/
theorem step_next (h : step s = .next t) :
    s.cfg.wf = true ∧ s.faulted = none ∧ turn s = .next t := by
  unfold step at h
  split at h
  · rename_i hw
    split at h
    · cases h
    · rename_i hf
      exact ⟨hw, hf, h⟩
  · cases h

/-- A step of a legal machine without a recorded fault is a turn. -/
theorem step_eq_turn (hw : s.cfg.wf = true) (hf : s.faulted = none) : step s = turn s := by
  simp [step, hw, hf]

/-- An access ends above its address. -/
theorem RawAccess.addr_lt_limit (a : RawAccess) : a.addr < a.limit := by
  unfold RawAccess.limit
  omega

/-- An 8-bit access covers the byte at its address. -/
theorem RawAccess.limit_byte {a : RawAccess} (h : a.bits = 8) : a.limit = a.addr + 1 := by
  simp [RawAccess.limit, h]

/-- A raw access that gives a state: it missed the window, had a wrong width, or was a HOST access. -/
theorem rawTurn_next {a : RawAccess} (h : rawTurn a s = .next t) :
    (a.limit ≤ s.cfg.hostBase ∧ t = s) ∨
    (s.cfg.hostBase < a.limit ∧ a.bits ≠ 8 ∧ t = recordFault .accessWidth s) ∨
    (s.cfg.hostBase ≤ a.addr ∧ a.bits = 8 ∧ a.kind = .write ∧
      exec (.hostWrite (a.addr - s.cfg.hostBase) a.data) s = .next t) ∨
    (s.cfg.hostBase ≤ a.addr ∧ a.bits = 8 ∧ a.kind = .read ∧
      exec (.hostRead (a.addr - s.cfg.hostBase)) s = .next t) := by
  unfold rawTurn at h
  split at h
  · rename_i hlt
    cases h
    exact .inl ⟨hlt, rfl⟩
  · rename_i hge
    have hge' : s.cfg.hostBase < a.limit := Nat.lt_of_not_le hge
    split at h
    · rename_i hb
      cases h
      exact .inr (.inl ⟨hge', hb, rfl⟩)
    · rename_i hb
      have hb' : a.bits = 8 := Decidable.of_not_not hb
      have ha : s.cfg.hostBase ≤ a.addr := by
        rw [RawAccess.limit_byte hb'] at hge'
        omega
      cases hk : a.kind <;> simp only [hk] at h
      · exact .inr (.inr (.inl ⟨ha, hb', rfl, h⟩))
      · exact .inr (.inr (.inr ⟨ha, hb', rfl, h⟩))

/-- What a HOST word can be: a write or a read at a 9-bit offset. -/
theorem decode_host_ok {c : Config} {w : List Byte} {i : Instr} (h : decode c .host w = .ok i) :
    (∃ off d, off < 512 ∧ i = .hostWrite off d) ∨ (∃ off, off < 512 ∧ i = .hostRead off) := by
  have h' : decodeHost w = .ok i := h
  unfold decodeHost at h'
  split at h'
  · split at h'
    · rename_i lo hi hlt
      cases h'
      exact .inr ⟨_, by have := lo.isLt; omega, rfl⟩
    · cases h'
  · split at h'
    · rename_i d lo hi hlt
      cases h'
      exact .inl ⟨_, _, by have := lo.isLt; omega, rfl⟩
    · cases h'
  · cases h'

/-- Which event a turn was. -/
theorem turn_next (h : turn s = .next t) :
    (s.inputs = [] ∧ exec (phaseInstr s.fsm) s = .next t) ∨
    (∃ rest, s.inputs = .block :: rest ∧
      exec (phaseInstr s.fsm) { s with inputs := rest } = .next t) ∨
    (∃ w rest i, s.inputs = .host w :: rest ∧ decode s.cfg .host w = .ok i ∧
      exec i { s with inputs := rest } = .next t) ∨
    (∃ a rest, s.inputs = .raw a :: rest ∧ rawTurn a { s with inputs := rest } = .next t) ∨
    (∃ rest, s.inputs = .reset :: rest ∧ t = applyReset { s with inputs := rest }) := by
  unfold turn at h
  split at h
  · rename_i hi
    rw [blockTurn_eq] at h
    exact .inl ⟨hi, h⟩
  · rename_i rest hi
    rw [blockTurn_eq] at h
    simp only [popInput, hi, List.tail_cons] at h
    exact .inr (.inl ⟨_, hi, h⟩)
  · rename_i w rest hi
    simp only [popInput, hi, List.tail_cons, hostTurn] at h
    split at h
    · rename_i i hd
      exact .inr (.inr (.inl ⟨w, _, i, hi, hd, h⟩))
    · cases h
  · rename_i a rest hi
    simp only [popInput, hi, List.tail_cons] at h
    exact .inr (.inr (.inr (.inl ⟨a, _, hi, h⟩)))
  · rename_i rest hi
    simp only [popInput, hi, List.tail_cons] at h
    cases h
    exact .inr (.inr (.inr (.inr ⟨_, hi, rfl⟩)))

/-- Offset 4 is CMD (R20). -/
theorem locate_cmd (c : Config) : locate c 4 = .cmd := rfl

/-- Only offset 4 is CMD. -/
theorem locate_eq_cmd {c : Config} {off : Nat} (h : locate c off = .cmd) : off = 4 := by
  unfold locate at h
  split at h <;> try simp_all
  split at h <;> simp_all

/-- A location in BUF is an index below 256. -/
theorem locate_eq_buf {c : Config} {off i : Nat} (h : locate c off = .buf i) :
    i < 256 ∧ off = 0x100 + i := by
  unfold locate at h
  split at h <;> try simp at h
  split at h
  · simp only [Location.buf.injEq] at h
    omega
  · simp at h

end Sys2Proof.Machine
end

