-- ==== Sys2Proof/Laws/Phase.lean ====
section
/-! SUPPORT. What a BLOCK step of a phase can be, and what a HOST access can do: the inversion
lemmas the whole-machine statements rest on. -/

namespace Sys2Proof.Machine

variable {s t : State}

/-- A BLOCK step of phase `p` with primitive `q`: the ISSUE step of a primitive that waits, the only
step of one that does not, with the completion action of `p` where `p` issues it, or a poll (R142). -/
theorem runPhase_cases (p : Phase) (q : Primitive) (s : State) :
    (s.sub = .issue ∧ q.waits = true ∧ runPhase p q s = enterWait (issuePrimitive q s)) ∨
    (s.sub = .issue ∧ q.endedBy p = true ∧
      runPhase p q s = finishPhase p (issuePrimitive q s)) ∨
    (s.sub = .issue ∧ q.waits = false ∧ q.endedBy p = false ∧
      runPhase p q s = issuePrimitive q s) ∨
    (s.sub = .wait ∧ runPhase p q s = poll p s) := by
  cases hs : s.sub
  · cases hq : q.waits
    · cases he : q.endedBy p
      · exact .inr (.inr (.inl ⟨rfl, rfl, rfl, runPhase_issue_only s p q hs hq he⟩))
      · exact .inr (.inl ⟨rfl, rfl, runPhase_issue_ends s p q hs he⟩)
    · exact .inl ⟨rfl, rfl, runPhase_issue_waits s p q hs hq⟩
  · exact .inr (.inr (.inr ⟨rfl, runPhase_wait s p q hs⟩))

/-- A BLOCK step of phase `p`: nothing in IDLE, the ISSUE step of a primitive that waits, the only
step of one that does not, a poll, or a byte no one wrote. -/
theorem phase_next {p : Phase} (h : exec (phaseInstr p) s = .next t) :
    (p = .idle ∧ t = s) ∨
    (p ∈ waitingPhases ∧ s.sub = .issue ∧
      ∃ q, q.waits = true ∧ t = enterWait (issuePrimitive q s)) ∨
    (p ∈ [Phase.config, .stop, .failStop, .busStop] ∧ s.sub = .issue ∧
      ∃ q, q.endedBy p = true ∧ t = finishPhase p (issuePrimitive q s)) ∨
    (p ≠ .idle ∧ s.sub = .wait ∧ t = poll p s) ∨
    (p = .writeData ∧ s.sub = .issue ∧ s.buf.read s.bufIndex = none ∧
      t = recordFault .txUnwritten s) := by
  have run : ∀ q : Primitive, p ≠ .idle → (q.waits = true → p ∈ waitingPhases) →
      (q.waits = false → q.endedBy p = true) →
      t = runPhase p q s →
      (p ∈ waitingPhases ∧ s.sub = .issue ∧
        ∃ q, q.waits = true ∧ t = enterWait (issuePrimitive q s)) ∨
      (p ∈ [Phase.config, .stop, .failStop, .busStop] ∧ s.sub = .issue ∧
        ∃ q, q.endedBy p = true ∧ t = finishPhase p (issuePrimitive q s)) ∨
      (p ≠ .idle ∧ s.sub = .wait ∧ t = poll p s) := by
    intro q hp hw he ht
    rcases runPhase_cases p q s with ⟨hs, hq, e⟩ | ⟨hs, hq, e⟩ | ⟨_, hq, hn, _⟩ | ⟨hs, e⟩
    · exact .inl ⟨hw hq, hs, q, hq, ht.trans e⟩
    · exact .inr (.inl ⟨phase_of_endedBy hq, hs, q, hq, ht.trans e⟩)
    · exact absurd (he hq) (by simp [hn])
    · exact .inr (.inr ⟨hp, hs, ht.trans e⟩)
  have weaken := fun q h1 h2 h3 h4 => Or.inr (a := p = .idle ∧ t = s)
    ((run q h1 h2 h3 h4).imp id (Or.imp id (Or.inl (b := p = .writeData ∧ s.sub = .issue ∧
      s.buf.read s.bufIndex = none ∧ t = recordFault .txUnwritten s))))
  cases p
  case idle => cases h; exact .inl ⟨rfl, rfl⟩
  case writeData =>
    simp only [phaseInstr, exec, execPhWriteData] at h
    split at h <;> cases h
    · rename_i hs hb
      exact .inr (.inr (.inr (.inr ⟨rfl, hs, hb, rfl⟩)))
    · rename_i b hs hb
      exact weaken (.tx b) (by decide) (fun _ => by decide) (by simp [Primitive.waits]) rfl
    · rename_i hs
      exact .inr (.inr (.inr (.inl ⟨by decide, hs, rfl⟩)))
  case readData =>
    cases h
    refine weaken _ (by decide) (fun _ => by decide) ?_ rfl
    split <;> simp [Primitive.waits]
  all_goals
    cases h
    exact weaken _ (by decide) (by first | (exact fun _ => by decide) | simp [Primitive.waits])
      (by simp [Primitive.waits, Primitive.endedBy]) rfl

/-- The three branches of MEM_L (R215). -/
theorem afterMemL_cases (s : State) :
    (s.dir = .read ∧ afterMemL s = enterPhase .restart s) ∨
    (s.dir = .write ∧ s.len = 0#8 ∧ afterMemL s = enterPhase .stop s) ∨
    (s.dir = .write ∧ s.len ≠ 0#8 ∧ afterMemL s = enterPhase .writeData s) := by
  unfold afterMemL
  cases hd : s.dir <;> by_cases hl : s.len = 0#8 <;> simp [hl]

/-- After a byte received: one more, or STOP (R195). -/
theorem afterReceived_eq (s : State) : afterReceived s =
    enterPhase (if (s.idx + 1#8).toNat < readCount s.len then .readData else .stop)
      { s with idx := s.idx + 1#8 } := by
  have h : afterReceived s = if (s.idx + 1#8).toNat < readCount s.len
      then enterPhase .readData (advanceIdx s) else enterPhase .stop (advanceIdx s) := rfl
  rw [h]
  split <;> rfl

/-- After a byte sent: one more, or STOP (R190). -/
theorem afterSent_eq (s : State) : afterSent s =
    enterPhase (if (s.idx + 1#8).toNat < s.len.toNat then .writeData else .stop)
      { s with idx := s.idx + 1#8 } := by
  have h : afterSent s = if (s.idx + 1#8).toNat < s.len.toNat
      then enterPhase .writeData (advanceIdx s) else enterPhase .stop (advanceIdx s) := rfl
  rw [h]
  split <;> rfl

/-- What the completion of a waiting phase does (R171, R172, R190, R195, R213 to R216): it reads
registers, stores the received byte in READ_DATA, and then fails in its phase or moves on. -/
theorem completePhase_cases {p : Phase} (hp : p ∈ waitingPhases) (s : State) :
    ∃ (reads : List EnvAccess) (m : Memory),
      (∀ r v, EnvAccess.write r v ∉ reads) ∧
      (p ≠ .readData → m = s.buf) ∧ (p = .readData → m = s.buf.write s.bufIndex s.ctl.data) ∧
      ((s.maskedStatus ≠ (match p with
          | .addrW => s.cfg.stAddrAckWrite
          | .addrR => s.cfg.stAddrAckRead
          | .readData => s.expectedRead
          | _ => s.cfg.stDataAckWrite) ∧ p ≠ .start ∧ p ≠ .restart ∧
        completePhase p s = failPath s.maskedStatus .failed p
          { s with accesses := s.accesses ++ reads, buf := m }) ∨
      ∃ q j, completePhase p s =
          enterPhase q { s with accesses := s.accesses ++ reads, buf := m, idx := j } ∧
        ((p = .start ∧ q = .addrW ∧ j = s.idx) ∨ (p = .addrW ∧ q = .memH ∧ j = s.idx) ∨
          (p = .memH ∧ q = .memL ∧ j = s.idx) ∨
          (p = .memL ∧ j = s.idx ∧ ((s.dir = .read ∧ q = .restart) ∨
            (s.dir = .write ∧ s.len = 0#8 ∧ q = .stop) ∨
            (s.dir = .write ∧ s.len ≠ 0#8 ∧ q = .writeData))) ∨
          (p = .restart ∧ q = .addrR ∧ j = s.idx) ∨ (p = .addrR ∧ q = .readData ∧ j = s.idx) ∨
          (p = .readData ∧ j = s.idx + 1#8 ∧
            q = if (s.idx + 1#8).toNat < readCount s.len then .readData else .stop) ∨
          (p = .writeData ∧ j = s.idx + 1#8 ∧
            q = if (s.idx + 1#8).toNat < s.len.toNat then .writeData else .stop))) := by
  have one : ∀ r v, EnvAccess.write r v ∉ [EnvAccess.read .status (s.ctl.get .status)] := by simp
  have two : ∀ r v, EnvAccess.write r v ∉
      [EnvAccess.read .data (s.ctl.get .data), EnvAccess.read .status (s.ctl.get .status)] := by
    simp
  cases p <;> simp only [waitingPhases, List.mem_cons, reduceCtorEq, List.not_mem_nil, or_self,
    or_false, false_or] at hp <;> simp only [completePhase]
  · exact ⟨[], s.buf, by simp, fun _ => rfl, by simp,
      .inr ⟨.addrW, s.idx, by simp [enterPhase], by simp⟩⟩
  · refine ⟨_, s.buf, one, fun _ => rfl, by simp, ?_⟩
    rcases validate_cases (ctlRead .status s) .addrW s.cfg.stAddrAckWrite (enterPhase .memH) with
      ⟨_, e⟩ | ⟨hm, e⟩
    · exact .inr ⟨.memH, s.idx, e, by simp⟩
    · exact .inl ⟨hm, by simp, by simp, e⟩
  · refine ⟨_, s.buf, one, fun _ => rfl, by simp, ?_⟩
    rcases validate_cases (ctlRead .status s) .memH s.cfg.stDataAckWrite (enterPhase .memL) with
      ⟨_, e⟩ | ⟨hm, e⟩
    · exact .inr ⟨.memL, s.idx, e, by simp⟩
    · exact .inl ⟨hm, by simp, by simp, e⟩
  · refine ⟨_, s.buf, one, fun _ => rfl, by simp, ?_⟩
    rcases validate_cases (ctlRead .status s) .memL s.cfg.stDataAckWrite afterMemL with
      ⟨_, e⟩ | ⟨hm, e⟩
    · rcases afterMemL_cases (ctlRead .status s) with ⟨hd, e'⟩ | ⟨hd, hl, e'⟩ | ⟨hd, hl, e'⟩
      · exact .inr ⟨.restart, s.idx, e.trans e', by simp at hd; simp [hd]⟩
      · exact .inr ⟨.stop, s.idx, e.trans e', by simp at hd hl; simp [hd, hl]⟩
      · exact .inr ⟨.writeData, s.idx, e.trans e', by simp at hd hl; simp [hd, hl]⟩
    · exact .inl ⟨hm, by simp, by simp, e⟩
  · exact ⟨[], s.buf, by simp, fun _ => rfl, by simp,
      .inr ⟨.addrR, s.idx, by simp [enterPhase], by simp⟩⟩
  · refine ⟨_, s.buf, one, fun _ => rfl, by simp, ?_⟩
    rcases validate_cases (ctlRead .status s) .addrR s.cfg.stAddrAckRead (enterPhase .readData) with
      ⟨_, e⟩ | ⟨hm, e⟩
    · exact .inr ⟨.readData, s.idx, e, by simp⟩
    · exact .inl ⟨hm, by simp, by simp, e⟩
  · refine ⟨_, s.buf.write s.bufIndex s.ctl.data, two, fun h => absurd rfl h, fun _ => rfl, ?_⟩
    have hu : storeReceived (ctlRead .status (ctlRead .data s)) =
        { s with
          accesses := s.accesses ++
            [EnvAccess.read .data (s.ctl.get .data), EnvAccess.read .status (s.ctl.get .status)]
          buf := s.buf.write s.bufIndex s.ctl.data } := by
      simp [storeReceived, ctlRead, State.bufIndex]
    rw [hu]
    rcases validate_cases { s with
          accesses := s.accesses ++
            [EnvAccess.read .data (s.ctl.get .data), EnvAccess.read .status (s.ctl.get .status)]
          buf := s.buf.write s.bufIndex s.ctl.data } .readData s.expectedRead afterReceived with
      ⟨_, e⟩ | ⟨hm, e⟩
    · refine .inr ⟨if (s.idx + 1#8).toNat < readCount s.len then .readData else .stop,
        s.idx + 1#8, e.trans ?_, by simp⟩
      exact afterReceived_eq _
    · exact .inl ⟨hm, by simp, by simp, e⟩
  · refine ⟨_, s.buf, one, fun _ => rfl, by simp, ?_⟩
    rcases validate_cases (ctlRead .status s) .writeData s.cfg.stDataAckWrite afterSent with
      ⟨_, e⟩ | ⟨hm, e⟩
    · exact .inr ⟨if (s.idx + 1#8).toNat < s.len.toNat then .writeData else .stop,
        s.idx + 1#8, e.trans (afterSent_eq _), by simp⟩
    · exact .inl ⟨hm, by simp, by simp, e⟩

/-- A poll that answers `d` is the poll of a state whose next draw is `d`. -/
theorem pollWith_eq_poll (d : EnvDraw) (p : Phase) (s : State) :
    pollWith d p s = poll p { s with env := d :: s.env.tail } := rfl

/-- What one poll of a waiting phase leaves (R145): one more poll counted, the fail path entered from
that phase, or the next phase; the draw is used up, and nothing is written to ENV. -/
theorem poll_cases {p : Phase} (hp : p ∈ waitingPhases) (s : State) :
    ∃ c acc, (∀ r v, EnvAccess.write r v ∉ acc) ∧ c.rate = s.ctl.rate ∧
      c.prescaler = s.ctl.prescaler ∧
      ((s.nextDraw.completes s.cfg = false ∧ poll p s =
        { s with ctl := c, env := s.env.tail, draws := s.draws + 1,
                 accesses := s.accesses ++ acc, polls := s.polls + 1 }) ∨
      (∃ m n code q, poll p s = failPath code q p
          { s with ctl := c, env := s.env.tail, draws := s.draws + 1,
                   accesses := s.accesses ++ acc, buf := m, polls := n } ∧
        (∀ a, a ≠ s.bufIndex → m.read a = s.buf.read a) ∧ (p ≠ .readData → m = s.buf) ∧
        ((q = .failed ∧ code = s.nextDraw.status &&& s.cfg.statusMask) ∨
          (q = .timedOut ∧ code = s.cfg.timeoutCode ∧ m = s.buf ∧
            s.cfg.pollLimit = some (s.polls + 1)))) ∨
      ∃ m q j, poll p s = enterPhase q
          { s with ctl := c, env := s.env.tail, draws := s.draws + 1,
                   accesses := s.accesses ++ acc, buf := m, idx := j } ∧
        (∀ a, a ≠ s.bufIndex → m.read a = s.buf.read a) ∧ (p ≠ .readData → m = s.buf) ∧
        (j = s.idx ∨ (j = s.idx + 1#8 ∧ (p = .readData ∨ p = .writeData))) ∧
        q ∈ transactionPhases ∧ p.code.toNat ≤ q.code.toNat) := by
  rcases pollWith_cases s s.nextDraw p with ⟨_, e⟩ | ⟨hc, _, e⟩ | ⟨_, hl, e⟩
  · obtain ⟨reads, m, hr, hm1, hm2, hh⟩ :=
      completePhase_cases hp (ctlRead .control (showDraw s.nextDraw s))
    have hm : ∀ a, a ≠ s.bufIndex → m.read a = s.buf.read a := by
      intro a ha
      by_cases hp' : p = .readData
      · rw [hm2 hp']
        exact Memory.read_write_other _ _ _ _ ha
      · rw [hm1 hp']
        rfl
    refine ⟨(showDraw s.nextDraw s).ctl, .read .control s.nextDraw.control :: reads,
      by simp [hr], rfl, rfl, ?_⟩
    rcases hh with ⟨_, _, _, h2⟩ | ⟨q, j, h2, hs⟩
    · refine .inr (.inl ⟨m, s.polls, _, _, (show poll p s = _ from e.trans h2).trans ?_, hm, hm1,
        .inl ⟨rfl, rfl⟩⟩)
      congr 2
      simp [ctlRead, showDraw, Controller.get]
    · refine .inr (.inr ⟨m, q, j, (show poll p s = _ from e.trans h2).trans ?_, hm, hm1, ?_⟩)
      · congr 2
        simp [ctlRead, showDraw, Controller.get]
      · rcases hs with ⟨rfl, rfl, rfl⟩ | ⟨rfl, rfl, rfl⟩ | ⟨rfl, rfl, rfl⟩ |
          ⟨rfl, rfl, ⟨_, rfl⟩ | ⟨_, _, rfl⟩ | ⟨_, _, rfl⟩⟩ | ⟨rfl, rfl, rfl⟩ | ⟨rfl, rfl, rfl⟩ |
          ⟨rfl, rfl, rfl⟩ | ⟨rfl, rfl, rfl⟩
        case inr.inr.inr.inr.inr.inr.inl =>
          exact ⟨.inr ⟨rfl, .inl rfl⟩, by split <;> decide, by split <;> decide⟩
        case inr.inr.inr.inr.inr.inr.inr =>
          exact ⟨.inr ⟨rfl, .inr rfl⟩, by split <;> decide, by split <;> decide⟩
        all_goals exact ⟨.inl rfl, by decide, by decide⟩
  · exact ⟨(showDraw s.nextDraw s).ctl, [.read .control s.nextDraw.control], by simp, rfl, rfl,
      .inl ⟨hc, e⟩⟩
  · exact ⟨(showDraw s.nextDraw s).ctl, [.read .control s.nextDraw.control], by simp, rfl, rfl,
      .inr (.inl ⟨s.buf, s.polls + 1, _, _, e, fun _ _ => rfl, fun _ => rfl,
        .inr ⟨rfl, rfl, rfl, hl⟩⟩)⟩

/-- The completion of a phase whose primitive does not wait: IDLE, with an outcome, RATE_CFG and PHASE
(R217, R221, R244, R248). -/
theorem finishPhase_eq {p : Phase} (hp : p ∈ [Phase.config, .stop, .failStop, .busStop])
    (h : s.sub = .issue) :
    ∃ o r ph, finishPhase p s = { s with outcome := o, rateCfg := r, phase := ph, fsm := .idle } ∧
      (p ≠ .config → r = s.rateCfg) := by
  simp only [List.mem_cons, List.not_mem_nil, or_false] at hp
  rcases hp with rfl | rfl | rfl | rfl
  · exact ⟨s.outcome, true, .idle, by simp [finishPhase, toIdle, h], by simp⟩
  · exact ⟨.complete, s.rateCfg, .idle, by simp [finishPhase, toIdle, h], by simp⟩
  · exact ⟨s.pend.outcome, s.rateCfg, s.phase, by simp [finishPhase, leaveFailPath, h], by simp⟩
  · exact ⟨s.outcome, s.rateCfg, .idle, by simp [finishPhase, toIdle, h], by simp⟩

/-- A CMD write: rejected, and why; or accepted, and what it starts (R240). -/
theorem commandWrite_next {v : Byte} (h : commandWrite v s = .next t) :
    (t = reject s ∧ (s.fsm ≠ .idle ∨ 5 ≤ v.toNat ∨
      ((v = 2#8 ∨ v = 3#8) ∧ s.sla.getLsbD 0 = true))) ∨
    (s.fsm = .idle ∧ ((v = 0#8 ∧ t = clearRej s) ∨ (v = 1#8 ∧ t = acceptCommand .config s) ∨
      (v = 2#8 ∧ s.sla.getLsbD 0 = false ∧ t = acceptTransfer .write s) ∨
      (v = 3#8 ∧ s.sla.getLsbD 0 = false ∧ t = acceptTransfer .read s) ∨
      (v = 4#8 ∧ t = acceptCommand .busStop s))) := by
  have high : v ≠ 0#8 → v ≠ 1#8 → v ≠ 2#8 → v ≠ 3#8 → v ≠ 4#8 → 5 ≤ v.toNat := by
    intro h0 h1 h2 h3 h4
    simp only [ne_eq, ← BitVec.toNat_inj, BitVec.toNat_ofNat] at h0 h1 h2 h3 h4
    omega
  unfold commandWrite at h
  cases hb : s.busy
  · have hi := (not_busy_iff s).1 hb
    split at h
    · cases h; exact .inr ⟨hi, .inl ⟨‹_›, whenIdle_idle _ _ hb⟩⟩
    split at h
    · cases h; exact .inr ⟨hi, .inr (.inl ⟨‹_›, whenIdle_idle _ _ hb⟩)⟩
    split at h
    · cases h
      rw [whenIdle_idle _ _ hb]
      rcases startTransfer_cases s .write with ⟨h1, h2⟩ | ⟨h1, h2⟩
      · exact .inl ⟨h2, .inr (.inr ⟨.inl ‹_›, h1⟩)⟩
      · exact .inr ⟨hi, .inr (.inr (.inl ⟨‹_›, h1, h2⟩))⟩
    split at h
    · cases h
      rw [whenIdle_idle _ _ hb]
      rcases startTransfer_cases s .read with ⟨h1, h2⟩ | ⟨h1, h2⟩
      · exact .inl ⟨h2, .inr (.inr ⟨.inr ‹_›, h1⟩)⟩
      · exact .inr ⟨hi, .inr (.inr (.inr (.inl ⟨‹_›, h1, h2⟩)))⟩
    split at h
    · cases h; exact .inr ⟨hi, .inr (.inr (.inr (.inr ⟨‹_›, whenIdle_idle _ _ hb⟩)))⟩
    · refine .inl ⟨?_, .inr (.inl (high ‹_› ‹_› ‹_› ‹_› ‹_›))⟩
      repeat' split at h
      all_goals (cases h; exact whenIdle_idle _ _ hb)
  · refine .inl ⟨?_, .inl ((busy_iff s).1 hb)⟩
    repeat' split at h
    all_goals (cases h; exact whenIdle_busy _ _ hb)

/-- A HOST write outside CMD: a fault recorded, nothing, or one register or byte stored while the
BLOCK is idle (R73, R76, R77, R255, R256). -/
theorem hostWrite_next {off : Nat} {v : Byte} (h : exec (.hostWrite off v) s = .next t) :
    (off = 4 ∧ commandWrite v s = .next t) ∨
    (off ≠ 4 ∧ ((∃ f, t = recordFault f s) ∨ t = s ∨
      (s.fsm = .idle ∧ ((off = 0 ∧ t = { s with sla := v }) ∨ (off = 1 ∧ t = { s with mah := v }) ∨
        (off = 2 ∧ t = { s with mal := v }) ∨ (off = 3 ∧ t = { s with len := v }) ∨
        ∃ i, i < 256 ∧ off = 0x100 + i ∧ t = { s with buf := s.buf.write i v })))) := by
  have h' : execHostWrite off v s = .next t := h
  unfold execHostWrite at h'
  have hne : ∀ x, locate s.cfg off = x → x ≠ .cmd → off ≠ 4 := by
    rintro x hx hn rfl
    exact hn (hx ▸ rfl)
  have e0 : locate s.cfg off = .sla → off = 0 := by
    unfold locate; split <;> first | simp | (split <;> simp)
  have e1 : locate s.cfg off = .mah → off = 1 := by
    unfold locate; split <;> first | simp | (split <;> simp)
  have e2 : locate s.cfg off = .mal → off = 2 := by
    unfold locate; split <;> first | simp | (split <;> simp)
  have e3 : locate s.cfg off = .len → off = 3 := by
    unfold locate; split <;> first | simp | (split <;> simp)
  have desc : ∀ u, descriptorWrite u s = t →
      (∃ f, t = recordFault f s) ∨ (s.fsm = .idle ∧ t = u) := by
    intro u hu
    unfold descriptorWrite at hu
    split at hu
    · exact .inl ⟨_, hu.symm⟩
    · rename_i hb
      exact .inr ⟨(not_busy_iff s).1 (by simpa using hb), hu.symm⟩
  split at h'
  · rename_i hc
    exact .inl ⟨locate_eq_cmd hc, h'⟩
  all_goals
    rename_i hx
    refine .inr ⟨hne _ hx (by simp), ?_⟩
    injection h' with h'
  · exact (desc _ h').imp id fun ⟨hi, ht⟩ => .inr ⟨hi, .inl ⟨e0 hx, ht⟩⟩
  · exact (desc _ h').imp id fun ⟨hi, ht⟩ => .inr ⟨hi, .inr (.inl ⟨e1 hx, ht⟩)⟩
  · exact (desc _ h').imp id fun ⟨hi, ht⟩ => .inr ⟨hi, .inr (.inr (.inl ⟨e2 hx, ht⟩))⟩
  · exact (desc _ h').imp id fun ⟨hi, ht⟩ => .inr ⟨hi, .inr (.inr (.inr (.inl ⟨e3 hx, ht⟩)))⟩
  · exact .inr (.inl h'.symm)
  · exact .inr (.inl h'.symm)
  · exact .inr (.inl h'.symm)
  · exact .inr (.inl h'.symm)
  · obtain ⟨hi, ho⟩ := locate_eq_buf hx
    unfold bufWrite at h'
    split at h'
    · exact .inl ⟨_, h'.symm⟩
    · rename_i hb
      exact .inr (.inr ⟨(not_busy_iff s).1 (by simpa using hb),
        .inr (.inr (.inr (.inr ⟨_, hi, ho, h'.symm⟩)))⟩)
  · exact .inl ⟨_, h'.symm⟩

/-- A HOST read: a fault recorded, or a value returned (R254, R77). -/
theorem hostRead_next {off : Nat} (h : exec (.hostRead off) s = .next t) :
    (∃ f, t = recordFault f s) ∨ ∃ v, t = { s with hostValue := v } := by
  have h' : execHostRead off s = .next t := h
  unfold execHostRead at h'
  split at h' <;> injection h' with h'
  case h_10 =>
    unfold bufRead at h'
    split at h'
    · exact .inl ⟨_, h'.symm⟩
    · split at h'
      · exact .inr ⟨_, h'.symm⟩
      · exact .inl ⟨_, h'.symm⟩
  case h_11 => exact .inl ⟨_, h'.symm⟩
  all_goals exact .inr ⟨_, h'.symm⟩

end Sys2Proof.Machine
end

