-- ==== Sys2Proof/Machine/HostProgram.lean ====
section
/-! DEFINITION. The assembler syntax of R123: HOST's accesses by register name, and the expansions of
the pseudo-instructions. `wait` is a HOST-side loop and no access of its own: each turn of it is
`lb STAT`. -/

namespace Sys2Proof.Machine.Asm

/-- `W off, data` as an input of the machine (R122). -/
def w (off : Nat) (data : Byte) : Input := .host (data :: offsetBytes off)

/-- `R off` as an input of the machine (R122). -/
def r (off : Nat) : Input := .host (offsetBytes off)

/-! Register offsets (R20). -/
def offSla : Nat := 0x000
def offMah : Nat := 0x001
def offMal : Nat := 0x002
def offLen : Nat := 0x003
def offCmd : Nat := 0x004
def offStat : Nat := 0x005
def offResult : Nat := 0x006
def offPhase : Nat := 0x007
def offIdx : Nat := 0x008
def offBuf (i : Nat) : Nat := 0x100 + i

/-- `sb REG, imm8` -/
def sb (off : Nat) (v : Byte) : Input := w off v

/-- `lb REG` -/
def lb (off : Nat) : Input := r off

/-- `config` -/
def config : List Input := [sb offCmd 0x01#8]

/-- `transfer.w sla, mh, ml, len` -/
def transferW (sla mh ml len : Byte) : List Input :=
  [sb offSla sla, sb offMah mh, sb offMal ml, sb offLen len, sb offCmd 0x02#8]

/-- `transfer.r sla, mh, ml, len` -/
def transferR (sla mh ml len : Byte) : List Input :=
  [sb offSla sla, sb offMah mh, sb offMal ml, sb offLen len, sb offCmd 0x03#8]

/-- `stopbus` -/
def stopbus : List Input := [sb offCmd 0x04#8]

/-- `fill i, b0, b1, ...` -/
def fill (i : Nat) : List Byte → List Input
  | [] => []
  | b :: bs => sb (offBuf i) b :: fill (i + 1) bs

end Sys2Proof.Machine.Asm
end

