-- ==== Sys2Proof/Tests/Slice0.lean ====
section
/-! SUPPORT. The model's own tests: the WellFormed smoke, one word of every row written out from
30_encoding.md, one-step vectors of 95_test_vectors.md, and a witness for the hypotheses of every
statement. Expected values come from the spec's vectors. -/

namespace Sys2Proof.Tests

open Sys2Proof Sys2Proof.Machine

/-! ### Helpers -/

/-- The parameters of 95_test_vectors.md section 0; the addresses are arbitrary. -/
def cfg : Config :=
  { Config.default with
    rateDivisor := 0x48#8
    ratePrescaler := none
    hostBase := 0x40
    ctrlBase := { rate := 0x70, control := 0x74, status := 0x71, data := 0x73, prescaler := 0x71 }
    controllerReset := false }

/-- The state after reset, with those parameters. -/
def r0 : State := { State.reset with cfg := cfg }

/-- State S0 of the vectors, with the descriptor of most of them. -/
def s0 : State := { r0 with rateCfg := true, sla := 0xA0#8, mal := 0x10#8 }

/-- The ISSUE step of phase `p` comes next. -/
def at' (p : Phase) (s : State) : State := { s with fsm := p, phase := p }

/-- A poll of phase `p` comes next, in which ENV answers so. -/
def waiting (p : Phase) (control status data : Byte) (s : State) : State :=
  { at' p s with sub := .wait, env := [{ control := control, status := status, data := data }] }

/-- The answer is a next state with this property. -/
def nextIs (r : Result) (f : State → Bool) : Bool :=
  match r with
  | .next t => f t
  | .fault _ => false
  | .refused _ => false

theorem exists_next {r : Result} {f : State → Bool} (h : nextIs r f = true) :
    ∃ t, r = .next t ∧ f t = true := by
  cases r with
  | next t => exact ⟨t, rfl, h⟩
  | fault _ => nomatch h
  | refused _ => nomatch h

/-- The status register's byte, PHASE, RESULT, IDX and the trace, as the vectors list them. -/
def view (s : State) : Byte × Byte × Byte × Byte × List TraceEntry :=
  (s.stat, s.phase.code, s.result, s.idx, s.trace)

/-! ### WellFormed smoke: each check refuses an ill-formed term -/

theorem test_wf_reservedRsv_zero : (Instr.reservedRsv 0#5 2#3).wellFormed = false := by decide
theorem test_wf_hostWrite_long : (Instr.hostWrite 0x200 0#8).wellFormed = false := by decide
theorem test_wf_hostRead_long : (Instr.hostRead 0x200).wellFormed = false := by decide
theorem test_wf_hostRead_last : (Instr.hostRead 0x1FF).wellFormed = true := by decide
theorem test_cfg_wf : cfg.wf = true := by decide
theorem test_cfg_status_low_bits : { cfg with stDataAckRead := 0x51#8 }.wf = false := by decide
theorem test_cfg_timeout_zero : { cfg with timeoutCode := 0x00#8 }.wf = false := by decide
theorem test_cfg_timeout_masked : { cfg with timeoutCode := 0x18#8 }.wf = false := by decide
theorem test_cfg_positions_equal : { cfg with ctlSta := 7 }.wf = false := by decide
theorem test_cfg_position_8 : { cfg with ctlEn := 8 }.wf = false := by decide
theorem test_cfg_poll_limit_zero : { cfg with pollLimit := some 0 }.wf = false := by decide
theorem test_cfg_small_buf : { cfg with bufSize := 254 }.wf = false := by decide
theorem test_cfg_names_statuses : cfg.namesStatuses = true := by decide
theorem test_step_refuses_bad_config :
    step { s0 with cfg := { cfg with bufSize := 254 } } = .refused .badConfig := by rfl

/-! ### Decoding: one word of every row, from the tables of 30_encoding.md -/

theorem test_decode_cmd :
    [0b00000000#8, 0b00000001#8, 0b00000010#8, 0b00000011#8, 0b00000100#8, 0b00000101#8,
      0b00000110#8, 0b00000111#8, 0b01000010#8].map decodeCmd =
    [.nop, .configureRate, .transferWrite, .transferRead, .stopBus, .reservedOp5, .reservedOp6,
      .reservedOp7, .reservedRsv 0b01000#5 0b010#3] := by decide
theorem test_decode_ctl_start :
    decode cfg (.ctl .receive) [0b10100100#8] = .ok .start := by rfl
theorem test_decode_ctl_stop :
    decode cfg (.ctl .receive) [0b10010100#8] = .ok .stop := by rfl
theorem test_decode_ctl_tx :
    decode cfg (.ctl .transmit) [0b10000100#8, 0x5A#8] = .ok (.tx 0x5A#8) := by rfl
theorem test_decode_ctl_rxAck :
    decode cfg (.ctl .receive) [0b11000100#8] = .ok .rxAck := by rfl
theorem test_decode_ctl_rxNack :
    decode cfg (.ctl .receive) [0b10000100#8] = .ok .rxNack := by rfl
theorem test_decode_ctl_mode :
    decode cfg (.ctl .transmit) [0b10000100#8] = .error .notAControlWord := by rfl
theorem test_decode_ctl_none :
    decode cfg (.ctl .transmit) [0b10110100#8] = .error .notAControlWord := by rfl
theorem test_decode_rate : decode cfg .rate [0b01001000#8] = .ok (.setRate 0x48#8) := by rfl
theorem test_decode_addr_write :
    decode cfg .busAddr [0b10100000#8] = .ok (.addrWriteByte 0b1010000#7) := by rfl
theorem test_decode_addr_read :
    decode cfg .busAddr [0b11111111#8] = .ok (.addrReadByte 0b1111111#7) := by rfl
theorem test_decode_startSent :
    decode cfg .status [0b00001000#8] = .ok (.startSent 0#3) := by rfl
theorem test_decode_addrAckWrite :
    decode cfg .status [0b00011111#8] = .ok (.addrAckWrite 7#3) := by rfl
theorem test_decode_addrAckRead :
    decode cfg .status [0b01000000#8] = .ok (.addrAckRead 0#3) := by rfl
theorem test_decode_dataAckWrite :
    decode cfg .status [0b00101111#8] = .ok (.dataAckWrite 7#3) := by rfl
theorem test_decode_dataAckRead :
    decode cfg .status [0b01010111#8] = .ok (.dataAckRead 7#3) := by rfl
theorem test_decode_dataNackRead :
    decode cfg .status [0b01011011#8] = .ok (.dataNackRead 3#3) := by rfl
theorem test_decode_unnamed_status :
    decode cfg .status [0b00100000#8] = .error .unnamedStatus := by rfl
theorem test_decode_phases :
    ([0x00#8, 0x01#8, 0x02#8, 0x03#8, 0x04#8, 0x05#8, 0x06#8, 0x07#8, 0x08#8, 0x09#8, 0x0A#8,
      0x0B#8, 0x0C#8].map fun v => decode cfg .phase [v]) =
    [.ok .phIdle, .ok .phConfig, .ok .phStart, .ok .phAddrW, .ok .phMemH, .ok .phMemL,
      .ok .phRestart, .ok .phAddrR, .ok .phReadData, .ok .phWriteData, .ok .phStop,
      .ok .phFailStop, .ok .phBusStop] := by rfl
theorem test_decode_no_phase : decode cfg .phase [0x0D#8] = .error .notAPhase := by rfl
theorem test_decode_host_write :
    decode cfg .host [0x41#8, 0x00#8, 0x01#8] = .ok (.hostWrite 0x100 0x41#8) := by rfl
theorem test_decode_host_read :
    decode cfg .host [0xFF#8, 0x01#8] = .ok (.hostRead 0x1FF) := by rfl
theorem test_decode_host_long :
    decode cfg .host [0x00#8, 0x02#8] = .error .offsetTooLong := by rfl
theorem test_decode_wrong_length : decode cfg .cmd [0x00#8, 0x00#8] = .error .wrongLength := by rfl

theorem test_table_cmd : decodeTableWord 8 0x02 = some .transferWrite := by decide
theorem test_table_reserved : decodeTableWord 8 0x82 = some (.reservedRsv 0b10000#5 2#3) := by
  decide
theorem test_table_ctl : decodeTableWord 8 0xA4 = some .start := by decide
theorem test_table_phase : decodeTableWord 8 0x09 = some .phWriteData := by decide
theorem test_table_status : decodeTableWord 8 0x58 = some (.dataNackRead 0#3) := by decide
theorem test_table_host_write : decodeTableWord 24 0x000402 = some (.hostWrite 4 0x02#8) := by
  decide
theorem test_table_host_read : decodeTableWord 16 0x0005 = some (.hostRead 5) := by decide

/-- Vector B11, R112: the word 0x84 is TX after a write address byte and RX_NACK after a read one. -/
theorem test_mode_of_trace :
    modeAfter .transmit [.prim .start, .prim (.tx 0xA0#8), .prim (.tx 0x00#8)] = .transmit ∧
    modeAfter .transmit [.prim .start, .prim (.tx 0xA0#8), .prim (.tx 0x00#8), .prim (.tx 0x10#8),
      .prim .start, .prim (.tx 0xA1#8)] = .receive := by decide

/-! ### Commands (vectors 2.1, 2.8) -/

theorem test_nop_C11 :
    nextIs (exec .nop { s0 with cmdRej := true }) (fun t => t.stat == 0x08#8) = true := by decide
theorem test_configureRate_C2 :
    nextIs (exec .configureRate s0) (fun t => view t == (0x09#8, 0x01#8, 0x00#8, 0x00#8, [])) =
      true := by decide
theorem test_configureRate_H12 :
    nextIs (exec .configureRate { s0 with outcome := .complete, idx := 1#8 })
      (fun t => t.stat == 0x0B#8 && t.idx == 1#8) = true := by decide
theorem test_transferWrite_H13 :
    nextIs (exec .transferWrite { s0 with outcome := .failed, result := 0x30#8, phase := .memL })
      (fun t => view t == (0x09#8, 0x02#8, 0x00#8, 0x00#8, [])) = true := by decide
theorem test_transferWrite_C8 :
    nextIs (exec .transferWrite { s0 with sla := 0xA1#8 })
      (fun t => t.stat == 0x18#8 && t.fsm == .idle) = true := by decide
theorem test_transferRead_C4 :
    nextIs (exec .transferRead s0) (fun t => t.stat == 0x09#8 && t.dir == .read) = true := by decide
theorem test_transferRead_H3 :
    nextIs (exec .transferRead { s0 with rateCfg := false })
      (fun t => t.stat == 0x01#8 && t.faulted == some .rateNotConfigured) = true := by decide
theorem test_stopBus_H11 :
    nextIs (exec .stopBus { s0 with outcome := .failed, result := 0x20#8, phase := .addrW })
      (fun t => view t == (0x0D#8, 0x0C#8, 0x20#8, 0x00#8, [])) = true := by decide
theorem test_reservedOp5_C6 :
    nextIs (exec .reservedOp5 s0) (fun t => t.stat == 0x18#8) = true := by decide
theorem test_reservedOp6_C6 :
    nextIs (exec .reservedOp6 s0) (fun t => t.stat == 0x18#8) = true := by decide
theorem test_reservedOp7_C6 :
    nextIs (exec .reservedOp7 s0) (fun t => t.stat == 0x18#8) = true := by decide
theorem test_reservedRsv_C7 :
    nextIs (exec (.reservedRsv 0b10000#5 0b010#3) s0) (fun t => t.stat == 0x18#8 && t.fsm == .idle)
      = true := by decide
theorem test_busy_H5 :
    nextIs (exec .transferRead (at' .addrW s0)) (fun t => t.stat == 0x19#8 && t.fsm == .addrW)
      = true := by decide

/-! ### Primitives (vectors 2.2) -/

theorem test_start_B2 :
    nextIs (exec .start (at' .start s0)) (fun t =>
      t.ctl.control == 0xA4#8 && t.trace == [.prim .start] && t.sub == .wait && t.polls == 0)
      = true := by decide
theorem test_start_B2_poll :
    nextIs (exec .start { (waiting .start 0x00#8 0x08#8 0x00#8 s0) with polls := 1 }) (fun t =>
      t.polls == 2 && t.fsm == .start && t.sub == .wait) = true := by decide
theorem test_stop_B3 :
    nextIs (exec .stop (at' .stop s0)) (fun t =>
      t.ctl.control == 0x94#8 && view t == (0x0A#8, 0x00#8, 0x00#8, 0x00#8, [.prim .stop]))
      = true := by decide
theorem test_tx_E7 :
    nextIs (exec (.tx 0xA0#8) (at' .addrW s0)) (fun t =>
      t.accesses == [.write .data 0xA0#8, .write .control 0x84#8] &&
      t.trace == [.prim (.tx 0xA0#8)]) = true := by decide
theorem test_rxAck_B9 :
    nextIs (exec .rxAck (at' .readData { s0 with len := 3#8 })) (fun t =>
      t.ctl.control == 0xC4#8 && t.trace == [.prim .rxAck]) = true := by decide
theorem test_rxNack_B10 :
    nextIs (exec .rxNack (at' .readData { s0 with len := 1#8 })) (fun t =>
      t.ctl.control == 0x84#8 && t.trace == [.prim .rxNack]) = true := by decide
theorem test_setRate_B1 :
    nextIs (exec (.setRate 0x48#8) (at' .config r0)) (fun t =>
      t.ctl.rate == 0x48#8 &&
      view t == (0x08#8, 0x00#8, 0x00#8, 0x00#8, [.prim (.setRate 0x48#8)])) = true := by decide
theorem test_setRate_prescaler :
    nextIs (exec (.setRate 0x48#8) (at' .config { r0 with cfg := { cfg with
      ratePrescaler := some 2#2 } })) (fun t =>
      t.accesses == [.write .rate 0x48#8, .write .prescaler 0x02#8]) = true := by decide
theorem test_timeout_B12 :
    nextIs (exec .start (waiting .start 0x00#8 0x08#8 0x00#8 { s0 with cfg := { cfg with
      pollLimit := some 1 } })) (fun t =>
      t.result == 0x01#8 && t.phase == .start && t.fsm == .failStop && t.pend == .timedOut)
      = true := by decide
theorem test_poll_B13 :
    nextIs (exec .start (waiting .start 0x80#8 0x08#8 0x00#8 { s0 with cfg := { cfg with
      pollLimit := some 1 } })) (fun t => t.fsm == .addrW && t.sub == .issue) = true := by decide

/-! ### Address bytes and statuses (vectors E1, 2.2, 2.3) -/

theorem test_addrWriteByte_E1 :
    nextIs (exec (.addrWriteByte 0b1010000#7) (at' .addrW s0)) (fun t =>
      t.trace == [.prim (.tx 0xA0#8)]) = true := by decide
theorem test_addrReadByte_E1 :
    nextIs (exec (.addrReadByte 0b1111111#7) (at' .addrR s0)) (fun t =>
      t.trace == [.prim (.tx 0xFF#8)]) = true := by decide
theorem test_startSent_A9 :
    nextIs (exec (.startSent 0#3) (waiting .start 0x00#8 0x00#8 0x00#8 s0)) (fun t =>
      t.fsm == .addrW && t.accesses == [.read .control 0x80#8]) = true := by decide
theorem test_addrAckWrite_B5 :
    nextIs (exec (.addrAckWrite 4#3) (waiting .addrW 0x00#8 0x00#8 0x00#8 s0)) (fun t =>
      t.fsm == .memH && t.result == 0x00#8) = true := by decide
theorem test_addrAckWrite_A10 :
    nextIs (exec (.addrAckWrite 0#3) (waiting .memH 0x00#8 0x00#8 0x00#8 s0)) (fun t =>
      t.fsm == .failStop && t.result == 0x18#8 && t.phase == .memH) = true := by decide
theorem test_addrAckRead_A6 :
    nextIs (exec (.addrAckRead 0#3) (waiting .addrR 0x00#8 0x00#8 0x00#8 s0)) (fun t =>
      t.fsm == .readData && t.idx == 0#8) = true := by decide
theorem test_addrAckRead_A3 :
    nextIs (exec (.addrAckRead 0#3) (waiting .addrW 0x00#8 0x00#8 0x00#8 s0)) (fun t =>
      t.result == 0x40#8 && t.phase == .addrW && t.pend == .failed) = true := by decide
theorem test_dataAckWrite_W5 :
    nextIs (exec (.dataAckWrite 7#3) (waiting .writeData 0x00#8 0x00#8 0x00#8
      { s0 with len := 3#8, idx := 2#8 })) (fun t => t.fsm == .stop && t.idx == 3#8)
      = true := by decide
theorem test_dataAckRead_D6 :
    nextIs (exec (.dataAckRead 0#3) (waiting .readData 0x00#8 0x00#8 0x02#8
      { s0 with len := 2#8, idx := 1#8 })) (fun t =>
      t.result == 0x50#8 && t.idx == 1#8 && t.buf == [(1, 0x02#8)]) = true := by decide
theorem test_dataNackRead_D1 :
    nextIs (exec (.dataNackRead 0#3) (waiting .readData 0x00#8 0x00#8 0x7F#8 s0)) (fun t =>
      t.fsm == .stop && t.idx == 1#8 && t.buf == [(0, 0x7F#8)]) = true := by decide
theorem test_dataNackRead_D5 :
    nextIs (exec (.dataNackRead 0#3) (waiting .readData 0x00#8 0x00#8 0x22#8
      { s0 with len := 3#8, idx := 1#8 })) (fun t =>
      t.result == 0x58#8 && t.phase == .readData && t.idx == 1#8) = true := by decide

/-! ### Phases (vectors 2.2 to 2.7) -/

theorem test_phIdle : exec .phIdle s0 = .next s0 := by rfl
theorem test_phConfig_H2 :
    nextIs (exec .phConfig (at' .config r0)) (fun t => view t ==
      (0x08#8, 0x00#8, 0x00#8, 0x00#8, [.prim (.setRate 0x48#8)])) = true := by decide
theorem test_phStart_T1 :
    nextIs (exec .phStart (waiting .start 0x80#8 0x00#8 0x00#8 s0)) (fun t =>
      view t == (0x09#8, 0x03#8, 0x00#8, 0x00#8, [])) = true := by decide
theorem test_phAddrW_B4 :
    nextIs (exec .phAddrW (waiting .addrW 0x80#8 0x1F#8 0x00#8 s0)) (fun t => t.fsm == .memH)
      = true := by decide
theorem test_phAddrW_E6 :
    nextIs (exec .phAddrW (waiting .addrW 0x80#8 0x27#8 0x00#8 { s0 with cfg := { cfg with
      stopOnFail := false } })) (fun t => view t == (0x0C#8, 0x03#8, 0x20#8, 0x00#8, []))
      = true := by decide
theorem test_phMemH_B7 :
    nextIs (exec .phMemH (waiting .memH 0x80#8 0x07#8 0x00#8 { s0 with cfg := { cfg with
      stopOnFail := false } })) (fun t => view t == (0x0C#8, 0x04#8, 0x00#8, 0x00#8, []))
      = true := by decide
theorem test_phMemL_T1 :
    nextIs (exec .phMemL (waiting .memL 0x80#8 0x28#8 0x00#8 s0)) (fun t => t.fsm == .stop)
      = true := by decide
theorem test_phMemL_read :
    nextIs (exec .phMemL (waiting .memL 0x80#8 0x28#8 0x00#8 { s0 with dir := .read })) (fun t =>
      t.fsm == .restart) = true := by decide
theorem test_phRestart :
    nextIs (exec .phRestart (waiting .restart 0x80#8 0x00#8 0x00#8 s0)) (fun t => t.fsm == .addrR)
      = true := by decide
theorem test_phAddrR_A8 :
    nextIs (exec .phAddrR (at' .addrR { s0 with sla := 0xFE#8 })) (fun t =>
      t.trace == [.prim (.tx 0xFF#8)]) = true := by decide
theorem test_phAddrR_A7 :
    nextIs (exec .phAddrR (waiting .addrR 0x80#8 0x48#8 0x00#8 s0)) (fun t =>
      t.result == 0x48#8 && t.phase == .addrR && t.buf == []) = true := by decide
theorem test_phReadData_B9 :
    nextIs (exec .phReadData (waiting .readData 0x80#8 0x57#8 0x5A#8 { s0 with len := 3#8 }))
      (fun t => t.buf == [(0, 0x5A#8)] && t.idx == 1#8 && t.fsm == .readData) = true := by decide
theorem test_phReadData_TO3 :
    nextIs (exec .phReadData { (waiting .readData 0x00#8 0x50#8 0x77#8 { s0 with
      len := 3#8, idx := 1#8, buf := [(0, 0x11#8), (1, 0xEE#8)],
      cfg := { cfg with pollLimit := some 2 } }) with polls := 1 })
      (fun t => t.result == 0x01#8 && t.idx == 1#8 && t.buf == [(0, 0x11#8), (1, 0xEE#8)])
      = true := by decide
theorem test_phWriteData_W2 :
    nextIs (exec .phWriteData (at' .writeData { s0 with len := 1#8, buf := [(0, 0x41#8)] }))
      (fun t => t.trace == [.prim (.tx 0x41#8)] && t.sub == .wait) = true := by decide
theorem test_phWriteData_W6 :
    nextIs (exec .phWriteData (at' .writeData { s0 with
      len := 2#8, idx := 1#8, buf := [(0, 0x41#8)] })) (fun t => t.faulted == some .txUnwritten && t.trace == [])
      = true := by decide
theorem test_phStop_T1 :
    nextIs (exec .phStop (at' .stop s0)) (fun t =>
      view t == (0x0A#8, 0x00#8, 0x00#8, 0x00#8, [.prim .stop])) = true := by decide
theorem test_phFailStop_T2 :
    nextIs (exec .phFailStop { s0 with fsm := .failStop, phase := .addrW, result := 0x20#8 })
      (fun t => view t == (0x0C#8, 0x03#8, 0x20#8, 0x00#8, [.prim .stop])) = true := by decide
theorem test_phFailStop_TO1 :
    nextIs (exec .phFailStop { s0 with
      fsm := .failStop, phase := .start, result := 0x01#8, pend := .timedOut }) (fun t => view t == (0x0E#8, 0x02#8, 0x01#8, 0x00#8, [.prim .stop]))
      = true := by decide
theorem test_phBusStop_H11 :
    nextIs (exec .phBusStop (at' .busStop { s0 with outcome := .failed, result := 0x20#8 }))
      (fun t => view t == (0x0C#8, 0x00#8, 0x20#8, 0x00#8, [.prim .stop])) = true := by decide

/-! ### HOST accesses and reset (vectors 2.8, 2.9) -/

theorem test_hostWrite_H8 :
    nextIs (exec (.hostWrite 0x000 0xB0#8) (at' .memL s0)) (fun t =>
      t.sla == 0xA0#8 && t.faulted == some .descriptorWhileBusy) = true := by decide
theorem test_hostWrite_P1 :
    nextIs (exec (.hostWrite 0x100 0x41#8) s0) (fun t =>
      t.buf == [(0, 0x41#8)] && t.faulted == none) = true := by decide
theorem test_hostRead_H1 :
    nextIs (exec (.hostRead 0x100) r0) (fun t => t.faulted == some .bufReadUnwritten)
      = true := by decide
theorem test_hostRead_P1 :
    nextIs (exec (.hostRead 0x005) { s0 with outcome := .complete }) (fun t =>
      t.hostValue == 0x0A#8) = true := by decide
theorem test_reset_RS1 :
    nextIs (step { (waiting .memL 0x80#8 0x28#8 0x00#8 { s0 with
      trace := [.prim .start], buf := [(0, 0x41#8)] }) with inputs := [.reset] }) (fun t =>
      view t == (0x00#8, 0x00#8, 0x00#8, 0x00#8, [.prim .start, .reset]) && t.buf == [] &&
      t.sla == 0x00#8 && t.sub == .issue) = true := by decide

/-- R123: the pseudo-instruction `transfer.w` is its five accesses (program P3, line 2). -/
theorem test_asm_transferW :
    Asm.transferW 0xAE#8 0x00#8 0x20#8 0x01#8 =
      [.host [0xAE#8, 0x00#8, 0x00#8], .host [0x00#8, 0x01#8, 0x00#8],
        .host [0x20#8, 0x02#8, 0x00#8], .host [0x01#8, 0x03#8, 0x00#8],
        .host [0x02#8, 0x04#8, 0x00#8]] := by decide

/-! ### The host's probe: a placed table word is what the next step runs -/

theorem test_fetch_transferWrite :
    nextIs (step (s0.withFetchWord 8 0x02)) (fun t => t.fsm == .start) = true := by decide
theorem test_fetch_start :
    nextIs (step (s0.withFetchWord 8 0xA4)) (fun t => t.trace == [.prim .start]) = true := by decide
theorem test_fetch_hostWrite :
    nextIs (step (s0.withFetchWord 24 0x0001A2)) (fun t => t.mah == 0xA2#8) = true := by decide

/-! ### Witnesses: states and operands that meet the hypotheses of each statement -/

/-- A BLOCK that waits in WRITE_DATA; ENV answers with the expected status. -/
def wWrite : State :=
  waiting .writeData 0x80#8 0x28#8 0x00#8 { s0 with len := 1#8, buf := [(0, 0x41#8)] }

/-- The same, with a status that fails. -/
def wFail : State :=
  waiting .writeData 0x80#8 0x30#8 0x00#8 { s0 with len := 1#8, buf := [(0, 0x41#8)] }

theorem witness_inv_write : wWrite.Inv where
  buf := by decide
  phaseFollows := by decide
  phaseNotFailStop := by decide
  failingPhase := by decide
  waitOnly := by decide
  evenSla := by decide
  idxZero := by decide
  readPhases := by decide
  readIdx := by decide
  writeIdx := by decide
  stopIdx := by decide
  resultZero := by decide
  outcomeNone := by decide
  resultComplete := by decide
  resultFailed := by decide
  resultTimedOut := by decide
  timedOutBounded := by decide
  pollsBounded := fun _ _ h => nomatch h

theorem witness_inv_fail : wFail.Inv where
  buf := by decide
  phaseFollows := by decide
  phaseNotFailStop := by decide
  failingPhase := by decide
  waitOnly := by decide
  evenSla := by decide
  idxZero := by decide
  readPhases := by decide
  readIdx := by decide
  writeIdx := by decide
  stopIdx := by decide
  resultZero := by decide
  outcomeNone := by decide
  resultComplete := by decide
  resultFailed := by decide
  resultTimedOut := by decide
  timedOutBounded := by decide
  pollsBounded := fun _ _ h => nomatch h

theorem witness_running : running s0 := ⟨by decide, rfl⟩

theorem witness_DecodeOfEncodeIsIdentity :
    cfg.wf = true ∧ cfg.namesStatuses = true ∧ (Instr.hostWrite 0x1FF 0xFF#8).wellFormed = true ∧
    (Instr.reservedRsv 31#5 7#3).wellFormed = true := by decide

theorem witness_ControlHoldsOnlyCommandWords :
    cfg.wf = true ∧ 7 < 8 ∧ ∃ t, step (at' .start s0) = .next t ∧ t.accesses ≠ [] :=
  ⟨by decide, by decide, _, rfl, by decide⟩

theorem witness_StepRunsDecodedInstruction :
    (∃ s w rest, running s ∧ s.inputs = .host w :: rest ∧
      decode s.cfg .host w = .ok (.hostWrite 4 0x02#8)) ∧
    (∃ s rest, running s ∧ s.inputs = .block :: rest ∧
      decode s.cfg .phase [s.fsm.code] = .ok .phStart) ∧
    (∃ s, running s ∧ s.inputs = [] ∧ decode s.cfg .phase [s.fsm.code] = .ok .phStart) :=
  ⟨⟨{ s0 with inputs := [.host [0x02#8, 0x04#8, 0x00#8]] }, _, _, ⟨by decide, rfl⟩, rfl, by rfl⟩,
    ⟨{ at' .start s0 with inputs := [.block] }, _, ⟨by decide, rfl⟩, rfl, by rfl⟩,
    ⟨at' .start s0, ⟨by decide, rfl⟩, rfl, by rfl⟩⟩

theorem witness_StepRunsEveryPlacedRow :
    running s0 ∧ (Instr.reservedRsv 16#5 2#3).wellFormed = true ∧
    (Instr.hostRead 0x1FF).wellFormed = true := ⟨witness_running, by decide, by decide⟩

theorem witness_RecordedFaultEndsTheRun :
    { s0 with faulted := some .txUnwritten }.cfg.wf = true ∧
    ∃ t, exec .nop { s0 with faulted := some .txUnwritten } = .next t := ⟨by decide, _, rfl⟩

theorem witness_BadConfigurationIsRefused :
    cfg.wf = true ∧ { cfg with bufSize := 254 }.wf = false ∧
    step { s0 with cfg := { cfg with bufSize := 254 } } = .refused .badConfig :=
  ⟨by decide, by decide, rfl⟩

theorem witness_ResetEventFromAnyState :
    ∃ s rest, running s ∧ s.inputs = .reset :: rest ∧ s.fsm = .memL ∧ s.sub = .wait :=
  ⟨{ (waiting .memL 0x80#8 0x28#8 0x00#8 s0) with inputs := [.reset] }, _, ⟨by decide, rfl⟩, rfl,
    rfl, rfl⟩

theorem witness_StepKeepsInv : wWrite.Inv ∧ ∃ t, step wWrite = .next t ∧ t.fsm = .stop :=
  ⟨witness_inv_write, _, rfl, by decide⟩

theorem witness_BufWriteAndRead :
    s0.busy = false ∧ 255 < 256 ∧ 255 < s0.cfg.bufSize ∧ s0.buf.read 255 = none ∧
    s0.faulted = none ∧ { s0 with buf := [(255, 7#8)] }.buf.read 255 = some 7#8 := by decide

theorem witness_BufIsBorrowedWhileBusy :
    (at' .memL s0).busy = true ∧ (at' .memL s0).faulted = none ∧ 255 < 256 ∧
    255 < (at' .memL s0).cfg.bufSize := by decide

theorem witness_DescriptorWrites :
    s0.busy = false ∧ (at' .memL s0).busy = true ∧ (at' .memL s0).faulted = none ∧ 3 < 4 := by
  decide

theorem witness_ReadOnlyRegistersIgnoreWrites :
    (0x005 ≤ 5 ∧ 5 ≤ 0x008) ∧ (0x005 ≤ 8 ∧ 8 ≤ 0x008) := by decide

theorem witness_UnmappedOffsetsFault :
    running s0 ∧ ∀ off ∈ [0x009, 0x0FF, 0x200], (0x009 ≤ off ∧ off ≤ 0x0FF) ∨ 0x200 ≤ off :=
  ⟨witness_running, by decide⟩

/-- HOST makes the raw access next (`HOST_BASE` is 0x40 in `s0`). -/
def rawNext (k : AccessKind) (bits addr : Nat) : State :=
  { s0 with inputs := [.raw { kind := k, bits := bits, addr := addr, data := 0#8 }] }

/-- A 16-bit access at `HOST_BASE`, one that begins a byte below it and reaches SLA (R71), the 8-bit
accesses at both ends of the window, and accesses of both widths that end just below it. -/
theorem witness_OnlyByteAccesses :
    (∀ k bits addr, running (rawNext k bits addr) ∧ (rawNext k bits addr).inputs =
      .raw { kind := k, bits := bits, addr := addr, data := 0#8 } :: []) ∧
    (16 ≠ 8 ∧ s0.cfg.hostBase ≤ 0x40) ∧ (s0.cfg.hostBase < 0x3F + (16 + 7) / 8) ∧
    0x40 = s0.cfg.hostBase + 0 ∧ 0x23F = s0.cfg.hostBase + 0x1FF ∧
    (0x3E < s0.cfg.hostBase ∧ 0x3E + (16 + 7) / 8 ≤ s0.cfg.hostBase) ∧
    (0x3F < s0.cfg.hostBase ∧ 0x3F + (8 + 7) / 8 ≤ s0.cfg.hostBase) :=
  ⟨fun _ _ _ => ⟨⟨(by decide : cfg.wf = true), rfl⟩, rfl⟩, by decide, by decide, by decide,
    by decide, by decide, by decide⟩

theorem test_rawAccess_reaches_into_window :
    nextIs (step (rawNext .write 16 0x3F)) (fun t =>
      t.faulted == some .accessWidth && t.sla == s0.sla) = true := by decide
theorem test_rawAccess_below_window :
    nextIs (step (rawNext .write 16 0x3E)) (fun t => t.faulted == none) = true := by decide

theorem witness_HostAccessFrame :
    (∃ t, exec (.hostRead 0x000) s0 = .next t) ∧
    (0x1FF ≠ 0x004 ∧ ∃ t, exec (.hostWrite 0x1FF 1#8) s0 = .next t ∧ t.buf ≠ s0.buf) :=
  ⟨⟨_, rfl⟩, by decide, _, rfl, by decide⟩

theorem witness_BufferFormIsCanonical :
    Memory.wf [(0, 1#8), (255, 2#8)] = true ∧ 255 < 256 := by decide

theorem witness_commands :
    s0.busy = false ∧ (at' .memL s0).busy = true ∧ s0.sla.getLsbD 0 = false ∧ s0.rateCfg = true ∧
    r0.rateCfg = false ∧ r0.busy = false ∧ r0.sla.getLsbD 0 = false ∧ r0.faulted = none ∧
    { s0 with sla := 0xA1#8 }.sla.getLsbD 0 = true := by decide

/-- HOST writes `v` to CMD next. -/
def cmd (v : Byte) (s : State) : State := { s with inputs := [.host [v, 0x04#8, 0x00#8]] }

theorem witness_CmdRejFollowsCmdWrites :
    (∃ t, step (cmd 0x05#8 s0) = .next t ∧ t.cmdRej = true) ∧ writesCmd 0x05#8 (cmd 0x05#8 s0) ∧
    rejected 0x05#8 (cmd 0x05#8 s0) ∧
    (∃ t, step (cmd 0x02#8 s0) = .next t ∧ t.fsm = .start) ∧ writesCmd 0x02#8 (cmd 0x02#8 s0) ∧
    ¬ rejected 0x02#8 (cmd 0x02#8 s0) ∧
    (∃ t, step s0 = .next t) ∧ (∀ v, ¬ writesCmd v s0) ∧ ¬ resetNext s0 := by
  refine ⟨?_, .inl ⟨_, _, rfl, by rfl⟩, .inr (.inl (by decide)), ?_, .inl ⟨_, _, rfl, by rfl⟩, ?_,
    ⟨_, rfl⟩, ?_, ?_⟩
  · simpa using exists_next (f := fun t => t.cmdRej) (by decide)
  · simpa using exists_next (f := fun t => decide (t.fsm = .start)) (by decide)
  · rintro (h | h | ⟨-, h⟩) <;> revert h <;> decide
  · rintro v (⟨_, _, h, -⟩ | ⟨_, h⟩) <;> cases h
  · rintro ⟨_, h⟩
    cases h

theorem witness_OnlyCmdWritesStartTheBlock :
    (cmd 0x04#8 s0).fsm = .idle ∧ ∃ t, step (cmd 0x04#8 s0) = .next t ∧ t.fsm = .busStop := by
  refine ⟨rfl, ?_⟩
  simpa using exists_next (f := fun t => decide (t.fsm = .busStop)) (by decide)

theorem witness_DescriptorIsFixedWhileBusy :
    ∃ s t, s.busy = true ∧ step s = .next t ∧ ¬ resetNext s ∧ s.fsm = .readData ∧ t.buf ≠ s.buf := by
  refine ⟨waiting .readData 0x80#8 0x58#8 0x7F#8 s0, _, by decide, rfl, ?_, rfl, by decide⟩
  rintro ⟨_, h⟩
  cases h

theorem witness_CommandRowsFrame :
    (spaceOf .nop = .cmd ∧ ∃ t, exec .nop s0 = .next t) ∧
    (spaceOf .transferRead = .cmd ∧ ∃ t, exec .transferRead s0 = .next t ∧ t.fsm = .start) ∧
    ∃ t, exec .stopBus (at' .memL s0) = .next t ∧ t.cmdRej = true :=
  ⟨⟨rfl, _, rfl⟩, ⟨rfl, _, rfl, by decide⟩, _, rfl, by decide⟩

theorem witness_primitives :
    s0.sub = .issue ∧ (at' .stop s0).fsm = .stop ∧ (at' .failStop s0).fsm = .failStop ∧
    (at' .busStop s0).fsm = .busStop ∧ (at' .config s0).fsm = .config ∧
    (at' .config s0).fsm ∉ [Phase.stop, .failStop, .busStop] ∧ (at' .stop s0).fsm ≠ .config := by decide

theorem witness_OutstandingPrimitiveIsPolled :
    wWrite.sub = .wait ∧ wWrite.fsm ∈ waitingPhases := by decide

theorem witness_BlockRowsFrame :
    blockRow (.tx 0xA0#8) ∧ blockRow .phReadData ∧ (∃ t, exec (.tx 0xA0#8) (at' .addrW s0) = .next t) ∧
    ∃ t, exec .phReadData (waiting .readData 0x80#8 0x58#8 0x7F#8 s0) = .next t ∧ t.idx = 1#8 :=
  ⟨⟨by decide, by decide⟩, ⟨by decide, by decide⟩, ⟨_, rfl⟩, _, rfl, by decide⟩

/-- For every phase that waits: its ISSUE step, a poll that completes with the expected status, one
that completes with another, and one that does not complete. -/
theorem witness_waiting_phases :
    (∀ p ∈ waitingPhases, (at' p s0).sub = .issue) ∧
    (∀ p ∈ waitingPhases, (waiting p 0x80#8 0x18#8 0x00#8 s0).sub = .wait) ∧
    (∀ p ∈ waitingPhases, completes cfg (waiting p 0x80#8 0x18#8 0x00#8 s0).nextDraw) ∧
    (∀ p ∈ waitingPhases, ¬ completes cfg (waiting p 0x7F#8 0x18#8 0x00#8 s0).nextDraw) ∧
    maskedAnswer cfg (waiting .addrW 0x80#8 0x1F#8 0x00#8 s0).nextDraw = cfg.stAddrAckWrite ∧
    maskedAnswer cfg (waiting .addrW 0x80#8 0x27#8 0x00#8 s0).nextDraw ≠ cfg.stAddrAckWrite :=
  ⟨by decide, by decide, by unfold completes; decide, by unfold completes; decide, by rfl, by decide⟩

theorem witness_AddressBytesDifferByOne : { s0 with sla := 0xFE#8 }.sla.getLsbD 0 = false := by
  decide

theorem witness_WriteDataPhase :
    (s0.sub = .issue ∧ { s0 with buf := [(0, 0x41#8)] }.buf.read s0.idx.toNat = some 0x41#8) ∧
    (s0.buf.read s0.idx.toNat = none ∧ s0.faulted = none) ∧
    (wWrite.sub = .wait ∧ completes wWrite.cfg wWrite.nextDraw ∧
      wWrite.idx.toNat < wWrite.len.toNat) ∧
    ¬ completes cfg (waiting .writeData 0x00#8 0x28#8 0x00#8 s0).nextDraw :=
  ⟨by decide, by decide, ⟨rfl, rfl, by decide⟩, fun h => nomatch h⟩

theorem witness_ReadDataPhase :
    (∀ len ∈ [0x00#8, 0x01#8], s0.idx.toNat = max (BitVec.toNat len) 1 - 1) ∧
    (s0.idx.toNat < max (BitVec.toNat 2#8) 1 - 1) ∧
    (BitVec.toNat 254#8 < max (BitVec.toNat 255#8) 1) ∧
    (maskedAnswer cfg (waiting .readData 0x80#8 0x5B#8 0x7F#8 s0).nextDraw =
      expectedCode .readData (waiting .readData 0x80#8 0x5B#8 0x7F#8 s0)) ∧
    (maskedAnswer cfg (waiting .readData 0x80#8 0x50#8 0x7F#8 s0).nextDraw ≠
      expectedCode .readData (waiting .readData 0x80#8 0x50#8 0x7F#8 s0)) :=
  ⟨by decide, by decide, by decide, by rfl, by decide⟩

theorem witness_NamedStatusCompletesItsPhase :
    s0.cfg.wf = true ∧ s0.cfg.namesStatuses = true ∧ s0.sub = .issue ∧
    (∀ p ∈ waitingPhases, (waiting p 0x00#8 0x00#8 0x00#8 s0).sub = .wait ∧
      (waiting p 0x00#8 0x00#8 0x00#8 s0).fsm = p) ∧
    (wWrite.fsm = .writeData ∧ wWrite.idx.toNat < wWrite.len.toNat) ∧
    s0.idx.toNat + 1 < max (BitVec.toNat 2#8) 1 ∧ s0.idx.toNat + 1 = max s0.len.toNat 1 := by
  decide

theorem witness_OnlyTheExpectedStatusSucceeds :
    (wWrite.sub = .wait ∧ Phase.writeData ∈ validatedPhases ∧ completes wWrite.cfg wWrite.nextDraw ∧
      maskedAnswer wWrite.cfg wWrite.nextDraw = expectedCode .writeData wWrite) ∧
    (completes wFail.cfg wFail.nextDraw ∧
      maskedAnswer wFail.cfg wFail.nextDraw ≠ expectedCode .writeData wFail) :=
  ⟨⟨rfl, by decide, rfl, by rfl⟩, rfl, by decide⟩

theorem witness_InsignificantBitsDoNotMatter :
    ∃ d d' : EnvDraw, d ≠ d' ∧ wWrite.sub = .wait ∧ Phase.writeData ∈ waitingPhases ∧
      d.data = d'.data ∧ maskedAnswer cfg d = maskedAnswer cfg d' ∧
      (completes cfg d ↔ completes cfg d') :=
  ⟨{ control := 0x80#8, status := 0x28#8, data := 0#8 },
    { control := 0xFF#8, status := 0x2F#8, data := 0#8 }, by decide, rfl, by decide, rfl, by rfl,
    ⟨fun _ => rfl, fun _ => rfl⟩⟩

theorem witness_SuccessorTable :
    (wWrite.Inv ∧ blockNext wWrite ∧ ∃ t, step wWrite = .next t ∧ t.fsm = successor wWrite) ∧
    (wFail.Inv ∧ blockNext wFail ∧ ∃ t, step wFail = .next t ∧ t.fsm = .failStop) :=
  ⟨⟨witness_inv_write, .inl rfl, _, rfl, by decide⟩, witness_inv_fail, .inl rfl, _, rfl, by decide⟩

theorem witness_TraceGrowsByOneIssue :
    (∃ s t p, step s = .next t ∧ blockNext s ∧ t.trace = s.trace ++ [.prim p] ∧ p.waits = true) ∧
    (∃ s t p, step s = .next t ∧ blockNext s ∧ t.trace = s.trace ++ [.prim p] ∧ p.waits = false) ∧
    (∃ s t, step s = .next t ∧ resetNext s ∧ t.trace = s.trace ++ [.reset]) ∧
    ∃ t, step wWrite = .next t ∧ t.trace = wWrite.trace :=
  ⟨⟨at' .start s0, _, .start, rfl, .inl rfl, by decide, rfl⟩,
    ⟨at' .stop s0, _, .stop, rfl, .inl rfl, by decide, rfl⟩,
    ⟨{ s0 with inputs := [.reset] }, _, rfl, ⟨_, rfl⟩, by decide⟩, _, rfl, by decide⟩

theorem witness_ResultIsWrittenOnlyByTheBlock :
    wFail.Inv ∧ ∃ t, step wFail = .next t ∧ t.result ≠ wFail.result ∧ t.result = 0x30#8 :=
  ⟨witness_inv_fail, _, rfl, by decide, by decide⟩

theorem witness_MismatchEndsTheTransaction :
    running wFail ∧ wFail.inputs = [] ∧ wFail.fsm ∈ validatedPhases ∧ wFail.sub = .wait ∧
    completes wFail.cfg wFail.nextDraw ∧
    maskedAnswer wFail.cfg wFail.nextDraw ≠ expectedCode wFail.fsm wFail :=
  ⟨⟨by decide, rfl⟩, rfl, by decide, rfl, rfl, by decide⟩

/-- Two answers with the flag 0. -/
def twoMisses : List EnvDraw :=
  [{ control := 0x00#8, status := 0x18#8, data := 0#8 },
    { control := 0x7F#8, status := 0x00#8, data := 1#8 }]

theorem witness_misses : ∀ d ∈ twoMisses, ¬ completes cfg d := by
  simp only [twoMisses, List.mem_cons, List.not_mem_nil, or_false]
  rintro d (rfl | rfl) <;> intro h <;> nomatch h

theorem witness_UnboundedWaitHangs :
    ∃ s, running s ∧ s.cfg.pollLimit = none ∧ s.inputs = [] ∧ s.fsm ∈ waitingPhases ∧
      s.sub = .wait ∧ 2 ≤ s.env.length ∧ ∀ d ∈ s.env, ¬ completes s.cfg d :=
  ⟨{ wWrite with env := twoMisses }, ⟨by decide, rfl⟩, rfl, rfl, by decide, rfl, by decide,
    witness_misses⟩

theorem witness_BoundedWaitTimesOut :
    ∃ s, running s ∧ s.cfg.pollLimit = some 2 ∧ s.inputs = [] ∧ s.fsm ∈ waitingPhases ∧
      s.sub = .wait ∧ s.polls = 0 ∧ 2 ≤ s.env.length ∧ ∀ d ∈ s.env, ¬ completes s.cfg d :=
  ⟨{ wWrite with env := twoMisses, cfg := { cfg with pollLimit := some 2 } }, ⟨by decide, rfl⟩, rfl,
    rfl, by decide, rfl, rfl, by decide, witness_misses⟩

/-- The answer with the flag 1, this status and this data byte. -/
def ans (status data : Byte) : EnvDraw := { control := 0x80#8, status := status, data := data }

theorem witness_FaultFreeWriteCompletes :
    ∃ s : State, running s ∧ s.fsm = .idle ∧ s.rateCfg = true ∧ s.sla.getLsbD 0 = false ∧
      s.inputs = [.host (0x02#8 :: offsetBytes 4)] ∧ [0x41#8].length = s.len.toNat ∧
      (∀ i, i < s.len.toNat → s.buf.read i = [0x41#8][i]?) ∧
      s.env = ans 0#8 0#8 :: ans 0x18#8 0#8 :: ans 0x28#8 0#8 :: ans 0x28#8 0#8 ::
        ([ans 0x28#8 0#8] ++ []) ∧
      completes s.cfg (ans 0#8 0#8) ∧ answers s.cfg s.cfg.stAddrAckWrite (ans 0x18#8 0#8) ∧
      answers s.cfg s.cfg.stDataAckWrite (ans 0x28#8 0#8) := by
  refine ⟨{ s0 with
      len := 1#8, buf := [(0, 0x41#8)], inputs := [.host (0x02#8 :: offsetBytes 4)],
      env := ans 0#8 0#8 :: ans 0x18#8 0#8 :: ans 0x28#8 0#8 :: ans 0x28#8 0#8 ::
        ([ans 0x28#8 0#8] ++ []) }, ⟨by decide, rfl⟩, rfl, rfl, by decide, rfl, rfl, ?_, rfl, rfl,
    ⟨rfl, by rfl⟩, ⟨rfl, by rfl⟩⟩
  intro i hi
  have h0 : i = 0 := by simpa using hi
  subst h0
  rfl

theorem witness_FaultFreeReadCompletes :
    ∃ s : State, running s ∧ s.fsm = .idle ∧ s.rateCfg = true ∧ s.sla.getLsbD 0 = false ∧
      s.inputs = [.host (0x03#8 :: offsetBytes 4)] ∧ max s.len.toNat 1 = 2 ∧
      s.env = ans 0#8 0#8 :: ans 0x18#8 0#8 :: ans 0x28#8 0#8 :: ans 0x28#8 0#8 :: ans 0#8 0#8 ::
        ans 0x40#8 0#8 :: ([ans 0x50#8 1#8, ans 0x58#8 2#8] ++ []) ∧
      completes s.cfg (ans 0#8 0#8) ∧ answers s.cfg s.cfg.stAddrAckRead (ans 0x40#8 0#8) ∧
      answers s.cfg s.cfg.stDataAckRead (ans 0x50#8 1#8) ∧
      answers s.cfg s.cfg.stDataNackRead (ans 0x58#8 2#8) :=
  ⟨{ s0 with
      len := 2#8, inputs := [.host (0x03#8 :: offsetBytes 4)],
      env := ans 0#8 0#8 :: ans 0x18#8 0#8 :: ans 0x28#8 0#8 :: ans 0x28#8 0#8 :: ans 0#8 0#8 ::
        ans 0x40#8 0#8 :: ([ans 0x50#8 1#8, ans 0x58#8 2#8] ++ []) },
    ⟨by decide, rfl⟩, rfl, rfl, by decide, rfl, rfl, rfl, rfl, ⟨rfl, by rfl⟩, ⟨rfl, by rfl⟩,
    ⟨rfl, by rfl⟩⟩

/-- A zero-length write (R215): no data byte and no data answer. -/
theorem witness_FaultFreeWriteCompletes_zero :
    ∃ s : State, running s ∧ s.fsm = .idle ∧ s.rateCfg = true ∧ s.sla.getLsbD 0 = false ∧
      s.inputs = [.host (0x02#8 :: offsetBytes 4)] ∧ s.len = 0#8 ∧
      ([] : List Byte).length = s.len.toNat ∧
      (∀ i, i < s.len.toNat → s.buf.read i = ([] : List Byte)[i]?) ∧
      s.env = ans 0#8 0#8 :: ans 0x18#8 0#8 :: ans 0x28#8 0#8 :: ans 0x28#8 0#8 :: ([] ++ []) ∧
      completes s.cfg (ans 0#8 0#8) ∧ answers s.cfg s.cfg.stAddrAckWrite (ans 0x18#8 0#8) ∧
      answers s.cfg s.cfg.stDataAckWrite (ans 0x28#8 0#8) :=
  ⟨{ s0 with
      len := 0#8, inputs := [.host (0x02#8 :: offsetBytes 4)],
      env := ans 0#8 0#8 :: ans 0x18#8 0#8 :: ans 0x28#8 0#8 :: ans 0x28#8 0#8 :: ([] ++ []) },
    ⟨by decide, rfl⟩, rfl, rfl, by decide, rfl, rfl, rfl, fun _ h => absurd h (Nat.not_lt_zero _),
    rfl, rfl, ⟨rfl, by rfl⟩, ⟨rfl, by rfl⟩⟩

/-- A read of LEN = 0 is a read of one byte (R197): its one answer is the not-acknowledged one. -/
theorem witness_FaultFreeReadCompletes_zero :
    ∃ s : State, running s ∧ s.fsm = .idle ∧ s.rateCfg = true ∧ s.sla.getLsbD 0 = false ∧
      s.inputs = [.host (0x03#8 :: offsetBytes 4)] ∧ s.len = 0#8 ∧
      [ans 0x58#8 2#8].length = max s.len.toNat 1 ∧
      s.env = ans 0#8 0#8 :: ans 0x18#8 0#8 :: ans 0x28#8 0#8 :: ans 0x28#8 0#8 :: ans 0#8 0#8 ::
        ans 0x40#8 0#8 :: ([ans 0x58#8 2#8] ++ []) ∧
      completes s.cfg (ans 0#8 0#8) ∧ answers s.cfg s.cfg.stAddrAckWrite (ans 0x18#8 0#8) ∧
      answers s.cfg s.cfg.stDataAckWrite (ans 0x28#8 0#8) ∧
      answers s.cfg s.cfg.stAddrAckRead (ans 0x40#8 0#8) ∧
      answers s.cfg s.cfg.stDataNackRead (ans 0x58#8 2#8) :=
  ⟨{ s0 with
      len := 0#8, inputs := [.host (0x03#8 :: offsetBytes 4)],
      env := ans 0#8 0#8 :: ans 0x18#8 0#8 :: ans 0x28#8 0#8 :: ans 0x28#8 0#8 :: ans 0#8 0#8 ::
        ans 0x40#8 0#8 :: ([ans 0x58#8 2#8] ++ []) },
    ⟨by decide, rfl⟩, rfl, rfl, by decide, rfl, rfl, rfl, rfl, rfl, ⟨rfl, by rfl⟩, ⟨rfl, by rfl⟩,
    ⟨rfl, by rfl⟩, ⟨rfl, by rfl⟩⟩

end Sys2Proof.Tests
end

/-! PROOFS. Configurations, encodings and the fault record: what R9 makes of a configuration, decoding
after encoding space by space (30_encoding.md), and that no instruction clears a recorded fault (R12). -/

namespace Sys2Proof

/-! ### What the constraints of R9 say -/

/-- The check of R9 is the conjunction of its constraints. -/
theorem Config.wf_iff (c : Config) : c.wf = true ↔
    (∀ st ∈ c.statusCodes, st &&& ~~~c.statusMask = 0#8) ∧
    c.timeoutCode &&& c.statusMask = 0#8 ∧ c.timeoutCode ≠ 0#8 ∧
    c.ctlPositions.Nodup ∧ (∀ p ∈ c.ctlPositions, p < 8) ∧
    (∀ n, c.pollLimit = some n → 1 ≤ n) ∧ 255 ≤ c.bufSize := by
  have hpoll : c.pollLimitPositive = true ↔ ∀ n, c.pollLimit = some n → 1 ≤ n := by
    unfold Config.pollLimitPositive
    cases c.pollLimit <;> simp
  simp only [Config.wf, Bool.and_eq_true, hpoll, Config.statusCodesMasked, Config.timeoutCodeApart,
    Config.ctlPositionsFit, Config.bufLargeEnough, List.all_eq_true, decide_eq_true_eq, beq_iff_eq,
    bne_iff_ne, and_assoc]

/-- The named statuses can be told apart: the mask is 0xF8 and the six codes differ (R108, R109). -/
theorem Config.namesStatuses_iff (c : Config) :
    c.namesStatuses = true ↔ c.statusMask = 0xF8#8 ∧ c.statusCodes.Nodup := by
  simp [Config.namesStatuses]

/-! ### Space CMD (R101, R102) -/

/-- A byte whose bits 7:3 are not zero is none of the eight rows with a byte of their own. -/
theorem append_ne_of_rsv_ne_zero {rsv : BitVec 5} (op : BitVec 3) (h : rsv ≠ 0#5) {v : Byte}
    (hv : v.extractLsb' 3 5 = 0#5) : rsv ++ op ≠ v := by
  rintro rfl
  exact h (BitVec.extractLsb'_append_eq_left.symm.trans hv)

/-- The reserved rows of R102 decode to themselves. -/
theorem decodeCmd_reserved {rsv : BitVec 5} (op : BitVec 3) (h : rsv ≠ 0#5) :
    decodeCmd (rsv ++ op) = .reservedRsv rsv op := by
  have ne : ∀ v : Byte, v.extractLsb' 3 5 = 0#5 → rsv ++ op ≠ v :=
    fun _ => append_ne_of_rsv_ne_zero op h
  have hrsv : (rsv ++ op).extractLsb' 3 5 = rsv := BitVec.extractLsb'_append_eq_left
  have hop : (rsv ++ op).extractLsb' 0 3 = op := BitVec.extractLsb'_append_eq_right
  simpa [decodeCmd, ne] using And.intro hrsv hop

/-! ### Spaces CTL: the bits of the command words (R111) -/

/-- `BIT(n)` has bit `n` and no other. -/
theorem getLsbD_bit {n k : Nat} (hk : k < 8) : (bit n).getLsbD k = decide (k = n) := by
  rw [bit, ← BitVec.twoPow_eq, BitVec.getLsbD_twoPow]
  by_cases h : n = k
  · simp [h, hk]
  · simp [h, Ne.symm h]

section CommandWords

variable (c : Config) {k : Nat} (hk : k < 8)
include hk

theorem Config.getLsbD_cwStart :
    c.cwStart.getLsbD k = true ↔ k = c.ctlInt ∨ k = c.ctlSta ∨ k = c.ctlEn := by
  simp [Config.cwStart, getLsbD_bit hk, or_assoc]

theorem Config.getLsbD_cwStop :
    c.cwStop.getLsbD k = true ↔ k = c.ctlInt ∨ k = c.ctlSto ∨ k = c.ctlEn := by
  simp [Config.cwStop, getLsbD_bit hk, or_assoc]

theorem Config.getLsbD_cwTx : c.cwTx.getLsbD k = true ↔ k = c.ctlInt ∨ k = c.ctlEn := by
  simp [Config.cwTx, getLsbD_bit hk]

theorem Config.getLsbD_cwRxAck :
    c.cwRxAck.getLsbD k = true ↔ k = c.ctlInt ∨ k = c.ctlEa ∨ k = c.ctlEn := by
  simp [Config.cwRxAck, getLsbD_bit hk, or_assoc]

theorem Config.getLsbD_cwRxNack : c.cwRxNack.getLsbD k = true ↔ k = c.ctlInt ∨ k = c.ctlEn :=
  c.getLsbD_cwTx hk

end CommandWords

/-- Words that differ in one bit differ. -/
theorem ne_of_getLsbD {v w : Byte} {k : Nat} (hv : v.getLsbD k = true)
    (hw : ¬ w.getLsbD k = true) : v ≠ w :=
  fun e => hw (e ▸ hv)

/-- The four different command words differ (R111): STA is set in CW_START only, STO in CW_STOP only,
EA in CW_RX_ACK only. -/
theorem Config.commandWords_nodup {c : Config} (hw : c.wf = true) :
    [c.cwStart, c.cwStop, c.cwRxAck, c.cwRxNack].Nodup := by
  obtain ⟨-, -, -, hd, h8, -⟩ := c.wf_iff.1 hw
  simp only [Config.ctlPositions, List.nodup_cons, List.mem_cons, List.not_mem_nil, or_false,
    not_or, forall_eq_or_imp, forall_eq] at hd h8
  obtain ⟨⟨hIntEa, hIntSta, hIntSto, -⟩, ⟨hEaSta, hEaSto, hEaEn⟩, ⟨hStaSto, hStaEn⟩, hStoEn, -⟩ := hd
  obtain ⟨-, hEa, hSta, hSto, -⟩ := h8
  have start : c.cwStart.getLsbD c.ctlSta = true := by simp [c.getLsbD_cwStart hSta]
  have stop : c.cwStop.getLsbD c.ctlSto = true := by simp [c.getLsbD_cwStop hSto]
  have rxAck : c.cwRxAck.getLsbD c.ctlEa = true := by simp [c.getLsbD_cwRxAck hEa]
  have start_stop := ne_of_getLsbD start (w := c.cwStop) (by rw [c.getLsbD_cwStop hSta]; omega)
  have start_rxAck := ne_of_getLsbD start (w := c.cwRxAck) (by rw [c.getLsbD_cwRxAck hSta]; omega)
  have start_rxNack :=
    ne_of_getLsbD start (w := c.cwRxNack) (by rw [c.getLsbD_cwRxNack hSta]; omega)
  have stop_rxAck := ne_of_getLsbD stop (w := c.cwRxAck) (by rw [c.getLsbD_cwRxAck hSto]; omega)
  have stop_rxNack := ne_of_getLsbD stop (w := c.cwRxNack) (by rw [c.getLsbD_cwRxNack hSto]; omega)
  have rxAck_rxNack := ne_of_getLsbD rxAck (w := c.cwRxNack) (by rw [c.getLsbD_cwRxNack hEa]; omega)
  simp [start_stop, start_rxAck, start_rxNack, stop_rxAck, stop_rxNack, rxAck_rxNack]

/-- CW_TX and its byte decode to TX while the controller transmits, whatever the positions (R112). -/
theorem decodeCtl_tx (c : Config) (b : Byte) : decodeCtl c .transmit [c.cwTx, b] = .ok (.tx b) :=
  if_pos ⟨rfl, rfl⟩

/-- Every other command word decodes to its primitive in the mode of its space (R111, R112). -/
theorem decodeCtl_commandWords {c : Config} (hw : c.wf = true) :
    decodeCtl c .transmit [c.cwStart] = .ok .start ∧
    decodeCtl c .transmit [c.cwStop] = .ok .stop ∧
    decodeCtl c .receive [c.cwRxAck] = .ok .rxAck ∧
    decodeCtl c .receive [c.cwRxNack] = .ok .rxNack := by
  have hd := Config.commandWords_nodup hw
  simp only [List.nodup_cons, List.mem_cons, List.not_mem_nil, or_false, not_or, ← ne_eq] at hd
  obtain ⟨⟨start_stop, start_rxAck, start_rxNack⟩, ⟨stop_rxAck, stop_rxNack⟩, rxAck_rxNack, -⟩ := hd
  simp [decodeCtl, start_stop.symm, start_rxAck.symm, start_rxNack.symm, stop_rxAck.symm,
    stop_rxNack.symm, rxAck_rxNack.symm]

/-! ### Space BUS_ADDR (R104) -/

/-- An address byte gives back its address and its direction. -/
theorem decodeBusAddr_addressByte (a : BitVec 7) (d : BitVec 1) :
    decodeBusAddr (addressByte a d) =
      if d.getLsbD 0 then .addrReadByte a else .addrWriteByte a := by
  have hdir : (addressByte a d).getLsbD 0 = d.getLsbD 0 := by
    rw [addressByte, BitVec.getLsbD_append, if_pos (by decide)]
  have hslave : slaveField (addressByte a d) = a := BitVec.extractLsb'_append_eq_left
  rw [decodeBusAddr, hdir, hslave]

/-! ### Space STATUS (R108, R109) -/

/-- A code under the mask of five significant bits has no other bits (R9). -/
theorem getLsbD_of_masked {st : Byte} (h : st &&& ~~~0xF8#8 = 0#8) {k : Nat} (hk : k < 3) :
    st.getLsbD k = false := by
  have low : (~~~0xF8#8 : Byte).getLsbD k = true := by revert k; decide
  have hk' := congrArg (BitVec.getLsbD · k) h
  rwa [BitVec.getLsbD_and, low, Bool.and_true, BitVec.getLsbD_zero] at hk'

/-- The mask of five significant bits takes the code back out of a status byte. -/
theorem statusByte_and_mask {st : Byte} (h : st &&& ~~~0xF8#8 = 0#8) (low : BitVec 3) :
    statusByte st low &&& 0xF8#8 = st := by
  have hlow : low.setWidth 8 &&& 0xF8#8 = 0#8 := by revert low; decide
  have hst : st &&& 0xF8#8 = st :=
    calc st &&& 0xF8#8
      _ = st &&& 0xF8#8 ||| st &&& ~~~0xF8#8 := by rw [h, BitVec.or_zero]
      _ = st &&& (0xF8#8 ||| ~~~0xF8#8) := BitVec.and_or_distrib_left.symm
      _ = st := BitVec.and_allOnes
  calc statusByte st low &&& 0xF8#8
    _ = st &&& 0xF8#8 ||| low.setWidth 8 &&& 0xF8#8 := BitVec.and_or_distrib_right
    _ = st := by rw [hst, hlow, BitVec.or_zero]

/-- Bits 2:0 of a status byte are the non-significant ones. -/
theorem extractLsb'_statusByte {st : Byte} (h : st &&& ~~~0xF8#8 = 0#8) (low : BitVec 3) :
    (statusByte st low).extractLsb' 0 3 = low := by
  ext k hk
  have hk8 : k < 8 := by omega
  have hst : st[k] = false := getLsbD_of_masked h hk
  simp [statusByte, hk, hk8, hst]

/-- A named code decodes to its row with the low bits it came with, where the six names can be told
apart. -/
theorem decodeStatus_statusByte {c : Config} (hw : c.wf = true) (hn : c.namesStatuses = true) :
    (∀ low, decodeStatus c (statusByte c.stStartSent low) = .ok (.startSent low)) ∧
    (∀ low, decodeStatus c (statusByte c.stAddrAckWrite low) = .ok (.addrAckWrite low)) ∧
    (∀ low, decodeStatus c (statusByte c.stAddrAckRead low) = .ok (.addrAckRead low)) ∧
    (∀ low, decodeStatus c (statusByte c.stDataAckWrite low) = .ok (.dataAckWrite low)) ∧
    (∀ low, decodeStatus c (statusByte c.stDataAckRead low) = .ok (.dataAckRead low)) ∧
    (∀ low, decodeStatus c (statusByte c.stDataNackRead low) = .ok (.dataNackRead low)) := by
  obtain ⟨hmask, hd⟩ := c.namesStatuses_iff.1 hn
  obtain ⟨hst, -⟩ := c.wf_iff.1 hw
  rw [hmask] at hst
  have code : ∀ low, ∀ st ∈ c.statusCodes, statusByte st low &&& c.statusMask = st :=
    fun low st h => hmask ▸ statusByte_and_mask (hst st h) low
  have rest : ∀ low, ∀ st ∈ c.statusCodes, (statusByte st low).extractLsb' 0 3 = low :=
    fun low st h => extractLsb'_statusByte (hst st h) low
  simp only [Config.statusCodes, List.nodup_cons, List.mem_cons, List.not_mem_nil, or_false, not_or,
    forall_eq_or_imp, forall_eq] at hd code rest
  simp [decodeStatus, code, rest, hd, eq_comm]

/-! ### Space HOST (R122) -/

/-- The two bytes of a 9-bit offset give it back. -/
theorem offsetBytes_toNat {off : Nat} (h : off < 512) :
    (BitVec.ofNat 8 (off / 256)).toNat < 2 ∧
    (BitVec.ofNat 8 (off / 256)).toNat * 256 + (BitVec.ofNat 8 off).toNat = off := by
  simp only [BitVec.toNat_ofNat]
  omega

/-- A HOST write decodes to its offset and its byte. -/
theorem decodeHost_write {off : Nat} (h : off < 512) (d : Byte) :
    decodeHost (d :: offsetBytes off) = .ok (.hostWrite off d) := by
  obtain ⟨hhi, hoff⟩ := offsetBytes_toNat h
  simp only [offsetBytes, decodeHost, if_pos hhi, hoff]

/-- A HOST read decodes to its offset. -/
theorem decodeHost_read {off : Nat} (h : off < 512) :
    decodeHost (offsetBytes off) = .ok (.hostRead off) := by
  obtain ⟨hhi, hoff⟩ := offsetBytes_toNat h
  simp only [offsetBytes, decodeHost, if_pos hhi, hoff]

/-! ### The decoder after the encoder -/

/-- Settles O2, space by space. -/
theorem decodeOfEncodeIsIdentity : Obligations.DecodeOfEncodeIsIdentity := by
  intro c i hw hn hi
  obtain ⟨hstart, hstop, hrxAck, hrxNack⟩ := decodeCtl_commandWords hw
  obtain ⟨hstartSent, haddrAckW, haddrAckR, hdataAckW, hdataAckR, hdataNackR⟩ :=
    decodeStatus_statusByte hw hn
  cases i
  case nop | configureRate | transferWrite | transferRead | stopBus | reservedOp5 | reservedOp6
      | reservedOp7 | setRate => rfl
  case reservedRsv rsv op =>
    exact congrArg Except.ok (decodeCmd_reserved op (of_decide_eq_true hi))
  case start => exact hstart
  case stop => exact hstop
  case tx b => exact decodeCtl_tx c b
  case rxAck => exact hrxAck
  case rxNack => exact hrxNack
  case addrWriteByte a => exact congrArg Except.ok (decodeBusAddr_addressByte a 0#1)
  case addrReadByte a => exact congrArg Except.ok (decodeBusAddr_addressByte a 1#1)
  case startSent low => exact hstartSent low
  case addrAckWrite low => exact haddrAckW low
  case addrAckRead low => exact haddrAckR low
  case dataAckWrite low => exact hdataAckW low
  case dataAckRead low => exact hdataAckR low
  case dataNackRead low => exact hdataNackR low
  case hostWrite off d => exact decodeHost_write (of_decide_eq_true hi) d
  case hostRead off => exact decodeHost_read (of_decide_eq_true hi)
  all_goals exact Machine.decode_phase_code c _

end Sys2Proof

namespace Sys2Proof.Machine

variable {s t : State}

/-! ### No operation of the BLOCK touches the fault record -/

theorem validate_faulted (p : Phase) (e : Byte) {f : State → State}
    (hf : ∀ u, (f u).faulted = u.faulted) (s : State) :
    (validate p e f s).faulted = s.faulted := by
  rcases validate_cases s p e f with ⟨-, h⟩ | ⟨-, h⟩ <;> simp [h, hf]

@[simp] theorem afterMemL_faulted (s : State) : (afterMemL s).faulted = s.faulted := by
  rcases afterMemL_cases s with ⟨-, h⟩ | ⟨-, -, h⟩ | ⟨-, -, h⟩ <;> simp [h]

@[simp] theorem afterSent_faulted (s : State) : (afterSent s).faulted = s.faulted := by
  simp [afterSent_eq]

@[simp] theorem afterReceived_faulted (s : State) : (afterReceived s).faulted = s.faulted := by
  simp [afterReceived_eq]

@[simp] theorem completePhase_faulted (p : Phase) (s : State) :
    (completePhase p s).faulted = s.faulted := by
  cases p <;> simp only [completePhase, enterPhase_faulted] <;>
    exact validate_faulted _ _ (fun _ => by simp) _

@[simp] theorem finishPhase_faulted (p : Phase) (s : State) :
    (finishPhase p s).faulted = s.faulted := by
  cases p <;> simp [finishPhase]

@[simp] theorem pollWith_faulted (d : EnvDraw) (p : Phase) (s : State) :
    (pollWith d p s).faulted = s.faulted := by
  rcases pollWith_cases s d p with ⟨-, h⟩ | ⟨-, -, h⟩ | ⟨-, -, h⟩ <;> simp [h]

@[simp] theorem poll_faulted (p : Phase) (s : State) : (poll p s).faulted = s.faulted :=
  pollWith_faulted s.nextDraw p s

@[simp] theorem runPhase_faulted (p : Phase) (q : Primitive) (s : State) :
    (runPhase p q s).faulted = s.faulted := by
  rcases runPhase_cases p q s with ⟨-, -, h⟩ | ⟨-, -, h⟩ | ⟨-, -, -, h⟩ | ⟨-, h⟩ <;> simp [h]

@[simp] theorem answerStatus_faulted (v : Byte) (s : State) :
    (answerStatus v s).faulted = s.faulted := by
  unfold answerStatus
  split <;> simp

/-! ### HOST's accesses only ever record a first fault (R12) -/

variable {f : Fault}

theorem acceptTransfer_keeps_fault (d : Direction) (hs : s.faulted = some f) :
    (acceptTransfer d s).faulted = some f := by
  unfold acceptTransfer
  cases s.rateCfg <;> simp [hs]

theorem commandWrite_keeps_fault {v : Byte} (hs : s.faulted = some f)
    (h : commandWrite v s = .next t) : t.faulted = some f := by
  rcases commandWrite_next h with
    ⟨rfl, -⟩ | ⟨-, ⟨-, rfl⟩ | ⟨-, rfl⟩ | ⟨-, -, rfl⟩ | ⟨-, -, rfl⟩ | ⟨-, rfl⟩⟩
  · exact hs
  · exact hs
  · exact hs
  · exact acceptTransfer_keeps_fault .write hs
  · exact acceptTransfer_keeps_fault .read hs
  · exact hs

theorem hostWrite_keeps_fault {off : Nat} {v : Byte} (hs : s.faulted = some f)
    (h : exec (.hostWrite off v) s = .next t) : t.faulted = some f := by
  rcases hostWrite_next h with ⟨-, hc⟩ | ⟨-, ⟨g, rfl⟩ | rfl | ⟨-, hstore⟩⟩
  · exact commandWrite_keeps_fault hs hc
  · exact recordFault_keeps s g f hs
  · exact hs
  · rcases hstore with ⟨-, rfl⟩ | ⟨-, rfl⟩ | ⟨-, rfl⟩ | ⟨-, rfl⟩ | ⟨i, -, -, rfl⟩ <;> exact hs

theorem hostRead_keeps_fault {off : Nat} (hs : s.faulted = some f)
    (h : exec (.hostRead off) s = .next t) : t.faulted = some f := by
  rcases hostRead_next h with ⟨g, rfl⟩ | ⟨v, rfl⟩
  · exact recordFault_keeps s g f hs
  · exact hs

/-- A byte no one wrote records a first fault (R190); every other step of WRITE_DATA leaves the
record. -/
theorem phWriteData_keeps_fault (hs : s.faulted = some f)
    (h : exec .phWriteData s = .next t) : t.faulted = some f := by
  rw [exec_phWriteData, execPhWriteData] at h
  split at h <;> cases h
  · exact recordFault_keeps s .txUnwritten f hs
  · exact (runPhase_faulted _ _ s).trans hs
  · exact (poll_faulted _ s).trans hs

/-- No instruction clears or replaces a recorded fault (R12). -/
theorem exec_keeps_fault {i : Instr} (hs : s.faulted = some f) (h : exec i s = .next t) :
    t.faulted = some f := by
  cases i
  case nop => exact commandWrite_keeps_fault (v := 0x00#8) hs h
  case configureRate => exact commandWrite_keeps_fault (v := 0x01#8) hs h
  case transferWrite => exact commandWrite_keeps_fault (v := 0x02#8) hs h
  case transferRead => exact commandWrite_keeps_fault (v := 0x03#8) hs h
  case stopBus => exact commandWrite_keeps_fault (v := 0x04#8) hs h
  -- every reserved row has the one meaning of R249
  case reservedOp5 | reservedOp6 | reservedOp7 | reservedRsv =>
    exact commandWrite_keeps_fault (v := 0x05#8) hs h
  case startSent | addrAckWrite | addrAckRead | dataAckWrite | dataAckRead | dataNackRead =>
    cases h
    exact (answerStatus_faulted _ s).trans hs
  case phIdle =>
    cases h
    exact hs
  case phWriteData => exact phWriteData_keeps_fault hs h
  case hostWrite off v => exact hostWrite_keeps_fault hs h
  case hostRead off => exact hostRead_keeps_fault hs h
  all_goals
    cases h
    exact (runPhase_faulted _ _ s).trans hs

/-- A legal machine with a recorded fault answers it (R12). -/
theorem step_of_faulted (hw : s.cfg.wf = true) (hf : s.faulted = some f) : step s = .fault f := by
  simp [step, hw, hf]

/-- A faulted state is not final (R12). -/
theorem not_final_of_faulted (hf : s.faulted = some f) : s.final = false := by
  simp [State.final, hf]

/-- Settles O7: the step reads the record before anything else, and every row of exec keeps it. -/
theorem recordedFaultEndsTheRun : Obligations.RecordedFaultEndsTheRun :=
  ⟨fun _ _ => step_of_faulted, fun _ _ => not_final_of_faulted, fun _ _ _ _ => exec_keeps_fault⟩

/-! ### The check of the configuration (R9) -/

/-- Every CMD write has a next state (R240). -/
theorem exists_commandWrite_eq_next (v : Byte) (s : State) : ∃ t, commandWrite v s = .next t := by
  unfold commandWrite
  repeat' split
  all_goals exact ⟨_, rfl⟩

/-- Every instruction has a meaning in every state: none ends in a fault or a refusal. -/
theorem exists_exec_eq_next (i : Instr) (s : State) : ∃ t, exec i s = .next t := by
  cases i
  case hostWrite off v =>
    rw [exec_hostWrite, execHostWrite]
    split
    · exact exists_commandWrite_eq_next v s
    all_goals exact ⟨_, rfl⟩
  case hostRead off =>
    rw [exec_hostRead, execHostRead]
    split <;> exact ⟨_, rfl⟩
  case phWriteData =>
    rw [exec_phWriteData, execPhWriteData]
    split <;> exact ⟨_, rfl⟩
  all_goals exact ⟨_, rfl⟩

/-- An instruction is never refused. -/
theorem exec_ne_refused (i : Instr) (s : State) (r : Refusal) : exec i s ≠ .refused r := by
  obtain ⟨t, h⟩ := exists_exec_eq_next i s
  simp [h]

/-- A turn may refuse HOST's bytes, never the configuration. -/
theorem turn_ne_badConfig (s : State) : turn s ≠ .refused .badConfig := by
  unfold turn
  split
  case h_1 => exact blockTurn_eq s ▸ exec_ne_refused _ _ _
  case h_2 => exact blockTurn_eq (popInput s) ▸ exec_ne_refused _ _ _
  case h_3 w _ _ =>
    unfold hostTurn
    split
    · exact exec_ne_refused _ _ _
    · simp
  case h_4 a _ _ =>
    unfold rawTurn
    repeat' split
    · simp
    · simp
    · exact exec_ne_refused _ _ _
    · exact exec_ne_refused _ _ _
  case h_5 => simp

/-- The step refuses the configuration exactly when the check of R9 fails (log entry 20). -/
theorem step_eq_badConfig_iff (s : State) :
    step s = .refused .badConfig ↔ s.cfg.wf = false := by
  cases hw : s.cfg.wf
  · simp [step, hw]
  · cases hf : s.faulted
    · simp [step_eq_turn hw hf, turn_ne_badConfig]
    · simp [step_of_faulted hw hf]

/-- Settles O8: the check is R9's conjunction, and only the step's own guard answers badConfig. -/
theorem badConfigurationIsRefused : Obligations.BadConfigurationIsRefused := by
  refine ⟨fun c => ?_, step_eq_badConfig_iff⟩
  simpa only [Config.statusCodes, Config.ctlPositions, List.mem_cons, List.not_mem_nil, or_false]
    using c.wf_iff

end Sys2Proof.Machine

/-! PROOFS. The state (10_state.md): the buffer's canonical form, what each event of the order of R85
can do to the state, and that every step keeps the invariant. -/

namespace Sys2Proof.Machine

variable {s t : State}

/-! ### Reset and STAT (R25, R60) -/

/-- Settles O9: each value is a field of `State.reset`, or is computed from its fields. -/
theorem resetLeavesTheStateOfR60 : Obligations.ResetLeavesTheStateOfR60 :=
  ⟨rfl, rfl, rfl, rfl, rfl, rfl, rfl, rfl, rfl, rfl, rfl, rfl, rfl, fun _ => rfl, rfl, rfl, rfl, rfl,
    rfl, rfl, rfl, rfl⟩

/-- Settles O14: STAT depends on three flags and the outcome only, sixteen bytes for each BUSY. -/
theorem statByteFields : Obligations.StatByteFields := by
  intro s
  rw [← busy_iff, State.stat]
  generalize s.busy = busy, s.outcome = outcome, s.rateCfg = rateCfg, s.cmdRej = cmdRej
  cases outcome <;> revert busy rateCfg cmdRej <;> decide

/-! ### The buffer's canonical form (R29) -/

theorem Memory.risingFrom_cons {lo k : Nat} {v : Byte} {rest : Memory} :
    Memory.risingFrom lo ((k, v) :: rest) = true ↔
      lo ≤ k ∧ Memory.risingFrom (k + 1) rest = true := by
  simp [Memory.risingFrom]

@[simp] theorem Memory.read_cons_same (k : Nat) (v : Byte) (rest : Memory) :
    Memory.read ((k, v) :: rest) k = some v :=
  if_pos rfl

theorem Memory.read_cons_other {a k : Nat} (v : Byte) (rest : Memory) (h : a ≠ k) :
    Memory.read ((k, v) :: rest) a = Memory.read rest a :=
  if_neg h

/-- Nothing is written below the lower bound of the indices. -/
theorem Memory.read_eq_none_of_lt {m : Memory} {lo a : Nat} (hm : Memory.risingFrom lo m = true)
    (ha : a < lo) : m.read a = none := by
  induction m generalizing lo with
  | nil => rfl
  | cons c rest ih =>
    obtain ⟨hk, hrest⟩ := Memory.risingFrom_cons.1 hm
    rw [Memory.read_cons_other _ _ (by omega), ih hrest (by omega)]

/-- The first index of a rising buffer is the least that reads as a byte, so two buffers that read
alike do not begin at different indices. -/
theorem Memory.head_le_head {k k' : Nat} {v v' : Byte} {rest rest' : Memory}
    (hrest' : Memory.risingFrom (k' + 1) rest' = true)
    (h : ∀ a, Memory.read ((k, v) :: rest) a = Memory.read ((k', v') :: rest') a) : k' ≤ k := by
  by_contra hlt
  have hnone : Memory.read ((k', v') :: rest') k = none :=
    Memory.read_eq_none_of_lt (Memory.risingFrom_cons.2 ⟨le_rfl, hrest'⟩) (by omega)
  simp [← h k] at hnone

/-- Rising buffers that read alike at every index are the same list. -/
theorem Memory.eq_of_read_eq {m m' : Memory} {lo lo' : Nat} (hm : Memory.risingFrom lo m = true)
    (hm' : Memory.risingFrom lo' m' = true) (h : ∀ a, m.read a = m'.read a) : m = m' := by
  induction m generalizing lo lo' m' with
  | nil =>
    cases m' with
    | nil => rfl
    | cons c' rest' => simpa [Memory.read] using h c'.1
  | cons c rest ih =>
    obtain ⟨k, v⟩ := c
    cases m' with
    | nil => simpa [Memory.read] using h k
    | cons c' rest' =>
      obtain ⟨k', v'⟩ := c'
      obtain ⟨-, hrest⟩ := Memory.risingFrom_cons.1 hm
      obtain ⟨-, hrest'⟩ := Memory.risingFrom_cons.1 hm'
      obtain rfl : k = k' := le_antisymm (Memory.head_le_head hrest fun a => (h a).symm)
        (Memory.head_le_head hrest' h)
      obtain rfl : v = v' := by simpa using h k
      refine congrArg _ (ih hrest hrest' fun a => ?_)
      by_cases ha : a < k + 1
      · rw [Memory.read_eq_none_of_lt hrest ha, Memory.read_eq_none_of_lt hrest' ha]
      · simpa [Memory.read_cons_other, show a ≠ k by omega] using h a

/-- Settles O22: rising indices leave one list for each reading, and `Memory.write_wf`. -/
theorem bufferFormIsCanonical : Obligations.BufferFormIsCanonical := by
  refine ⟨fun m m' hm hm' h => ?_, fun m a v => Memory.write_wf m a v⟩
  simp only [Memory.wf, Bool.and_eq_true] at hm hm'
  exact Memory.eq_of_read_eq hm.1 hm'.1 h

/-! ### What a step can be (R85) -/

/-- What a step from `s` to `t` was: a turn of the BLOCK, a HOST write to CMD, another HOST access, or
the reset input. `rest` is what is left of the inputs. -/
inductive StepCase (s t : State) (rest : List Input) : Prop where
  | block (hnext : blockNext s)
      (hexec : exec (phaseInstr s.fsm) { s with inputs := rest } = .next t)
  | command (v : Byte) (hcmd : writesCmd v s)
      (hwrite : commandWrite v { s with inputs := rest } = .next t)
  /-- an access that stores nothing: a read, a fault recorded, or one that is ignored -/
  | access (f : Option Fault) (v : Byte)
      (ht : t = { s with inputs := rest, faulted := f, hostValue := v })
  /-- an access that stores a byte, in the descriptor or in BUF -/
  | store (a h l n : Byte) (m : Memory) (hidle : s.fsm = .idle) (hm : s.buf.wf = true → m.wf = true)
      (ht : t = { s with inputs := rest, sla := a, mah := h, mal := l, len := n, buf := m })
  | reset (hnext : resetNext s) (ht : t = applyReset { s with inputs := rest })

/-- A HOST write that is the next event: a write to CMD, or one of the other accesses. -/
theorem stepCase_of_hostWrite {rest : List Input} {off : Nat} {v : Byte}
    (hcmd : off = 4 → writesCmd v s)
    (h : exec (.hostWrite off v) { s with inputs := rest } = .next t) : StepCase s t rest := by
  rcases hostWrite_next h with ⟨hoff, hw⟩ | ⟨-, ⟨f, ht⟩ | ht | ⟨hidle, hstore⟩⟩
  · exact .command v (hcmd hoff) hw
  · exact .access _ _ ht
  · exact .access _ _ ht
  · rcases hstore with ⟨-, ht⟩ | ⟨-, ht⟩ | ⟨-, ht⟩ | ⟨-, ht⟩ | ⟨i, hi, -, ht⟩
    · exact .store _ _ _ _ _ hidle id ht
    · exact .store _ _ _ _ _ hidle id ht
    · exact .store _ _ _ _ _ hidle id ht
    · exact .store _ _ _ _ _ hidle id ht
    · exact .store _ _ _ _ _ hidle (fun hm => Memory.write_wf s.buf i v hm hi) ht

/-- A HOST read that is the next event stores nothing. -/
theorem stepCase_of_hostRead {rest : List Input} {off : Nat}
    (h : exec (.hostRead off) { s with inputs := rest } = .next t) : StepCase s t rest := by
  rcases hostRead_next h with ⟨f, ht⟩ | ⟨v, ht⟩
  · exact .access _ _ ht
  · exact .access _ _ ht

/-- A raw access that is the next event: outside the window, of a wrong width, or a HOST access. -/
theorem stepCase_of_rawTurn {rest : List Input} {a : RawAccess} (hin : s.inputs = .raw a :: rest)
    (h : rawTurn a { s with inputs := rest } = .next t) : StepCase s t rest := by
  rcases rawTurn_next h with ⟨-, ht⟩ | ⟨-, -, ht⟩ | ⟨hbase, hbits, hkind, hw⟩ | ⟨-, -, -, hr⟩
  · exact .access _ _ ht
  · exact .access _ _ ht
  · refine stepCase_of_hostWrite (fun hoff => .inr ⟨rest, ?_⟩) hw
    obtain ⟨kind, bits, addr, data⟩ := a
    have haddr : addr = s.cfg.hostBase + 4 := by
      simp only at hoff hbase
      omega
    simp only at hbits hkind
    rw [hin, hbits, hkind, haddr]
  · exact stepCase_of_hostRead hr

/-- Every step is one of the five cases. -/
theorem step_cases (h : step s = .next t) : ∃ rest, StepCase s t rest := by
  obtain ⟨-, -, hturn⟩ := step_next h
  rcases turn_next hturn with ⟨hin, h⟩ | ⟨rest, hin, h⟩ | ⟨w, rest, i, hin, hd, h⟩ |
    ⟨a, rest, hin, h⟩ | ⟨rest, hin, h⟩
  · exact ⟨s.inputs, .block (.inl hin) h⟩
  · exact ⟨rest, .block (.inr ⟨rest, hin⟩) h⟩
  · rcases decode_host_ok hd with ⟨off, v, -, rfl⟩ | ⟨off, -, rfl⟩
    · exact ⟨rest, stepCase_of_hostWrite (fun hoff => .inl ⟨w, rest, hin, hoff ▸ hd⟩) h⟩
    · exact ⟨rest, stepCase_of_hostRead h⟩
  · exact ⟨rest, stepCase_of_rawTurn hin h⟩
  · exact ⟨rest, .reset ⟨rest, hin⟩ h⟩


/-! ### What leaves IDLE (R24) -/

/-- The BLOCK's turn in IDLE changes nothing (R212). -/
theorem eq_of_idle_turn (hidle : s.fsm = .idle) (h : exec (phaseInstr s.fsm) s = .next t) :
    t = s := by
  rw [hidle] at h
  cases h
  rfl

/-- A CMD write that leaves IDLE writes one of the four commands that start the BLOCK (R101). -/
theorem command_of_leaves_idle {v : Byte} (hidle : s.fsm = .idle) (h : commandWrite v s = .next t)
    (hbusy : t.fsm ≠ .idle) : v = 0x01#8 ∨ v = 0x02#8 ∨ v = 0x03#8 ∨ v = 0x04#8 := by
  rcases commandWrite_next h with
    ⟨rfl, -⟩ | ⟨-, ⟨-, rfl⟩ | ⟨hv, -⟩ | ⟨hv, -⟩ | ⟨hv, -⟩ | ⟨hv, -⟩⟩
  · exact absurd hidle hbusy
  · exact absurd hidle hbusy
  all_goals simp [hv]

/-- Settles O32: of the five cases of a step only a CMD write leaves IDLE. -/
theorem onlyCmdWritesStartTheBlock : Obligations.OnlyCmdWritesStartTheBlock := by
  intro s t hidle h hbusy
  obtain ⟨rest, hcase⟩ := step_cases h
  cases hcase with
  | block _ hexec =>
    obtain rfl := eq_of_idle_turn (s := { s with inputs := rest }) hidle hexec
    exact absurd hidle hbusy
  | command v hcmd hwrite =>
    rcases command_of_leaves_idle (s := { s with inputs := rest }) hidle hwrite hbusy with
      rfl | rfl | rfl | rfl
    · exact .inl hcmd
    · exact .inr (.inl hcmd)
    · exact .inr (.inr (.inl hcmd))
    · exact .inr (.inr (.inr hcmd))
  | access f v ht => exact absurd (ht ▸ hidle) hbusy
  | store a h l n m _ _ ht => exact absurd (ht ▸ hidle) hbusy
  | reset _ ht => exact absurd (ht ▸ rfl) hbusy

/-! ### The descriptor and BUF while BUSY (R35, R74) -/

/-- `t` has the descriptor of `s`, and its BUF reads as that of `s` at every index that is not
`stored`. -/
def keepsBorrowed (stored : Nat → Prop) (s t : State) : Prop :=
  t.sla = s.sla ∧ t.mah = s.mah ∧ t.mal = s.mal ∧ t.len = s.len ∧
    ∀ a, ¬ stored a → t.buf.read a = s.buf.read a

/-- A completion stores at most the byte at IDX, and that in READ_DATA only (R195). -/
theorem completePhase_keepsBorrowed (p : Phase) (s : State) :
    keepsBorrowed (fun a => p = .readData ∧ a = s.bufIndex) s (completePhase p s) := by
  by_cases hp : p ∈ waitingPhases
  · obtain ⟨reads, m, -, hother, hread, hnext⟩ := completePhase_cases hp s
    have hm : ∀ a, ¬ (p = .readData ∧ a = s.bufIndex) → m.read a = s.buf.read a := by
      intro a ha
      by_cases hr : p = .readData
      · rw [hread hr]
        exact Memory.read_write_other _ _ _ _ fun e => ha ⟨hr, e⟩
      · rw [hother hr]
    rcases hnext with ⟨-, -, -, e⟩ | ⟨q, j, e, -⟩ <;> rw [e]
    · exact ⟨by simp, by simp, by simp, by simp, by simpa using hm⟩
    · exact ⟨rfl, rfl, rfl, rfl, hm⟩
  · cases p
    case idle | config | stop | failStop | busStop => exact ⟨rfl, rfl, rfl, rfl, fun _ _ => rfl⟩
    all_goals exact absurd (by decide) hp

theorem poll_keepsBorrowed (p : Phase) (s : State) :
    keepsBorrowed (fun a => p = .readData ∧ a = s.bufIndex) s (poll p s) := by
  rcases pollWith_cases s s.nextDraw p with ⟨-, e⟩ | ⟨-, -, e⟩ | ⟨-, -, e⟩ <;> rw [poll, e]
  · exact completePhase_keepsBorrowed p (ctlRead .control (showDraw s.nextDraw s))
  · exact ⟨rfl, rfl, rfl, rfl, fun _ _ => rfl⟩
  · simp [keepsBorrowed]

/-- A turn of phase `p` keeps the descriptor, and BUF but for a WAIT step of READ_DATA. -/
theorem turn_keepsBorrowed {p : Phase} (h : exec (phaseInstr p) s = .next t) :
    keepsBorrowed (fun a => p = .readData ∧ s.sub = .wait ∧ a = s.bufIndex) s t := by
  rcases phase_next h with ⟨-, rfl⟩ | ⟨-, -, q, -, rfl⟩ | ⟨hp, hs, q, -, rfl⟩ | ⟨-, hs, rfl⟩ |
    ⟨-, -, -, rfl⟩
  · simp [keepsBorrowed]
  · simp [keepsBorrowed]
  · obtain ⟨o, r, ph, e, -⟩ := finishPhase_eq hp ((issuePrimitive_sub s q).trans hs)
    simp [keepsBorrowed, e]
  · simpa [hs] using poll_keepsBorrowed p s
  · simp [keepsBorrowed]

/-- Settles O33: a busy BLOCK's step is its own turn, a rejected command, or an access that stores
nothing. -/
theorem descriptorIsFixedWhileBusy : Obligations.DescriptorIsFixedWhileBusy := by
  intro s t hbusy h hreset
  have hfsm := (busy_iff s).1 hbusy
  suffices keepsBorrowed (fun a => s.fsm = .readData ∧ s.sub = .wait ∧ a = s.bufIndex) s t by
    obtain ⟨hsla, hmah, hmal, hlen, hbuf⟩ := this
    refine ⟨hsla, hmah, hmal, hlen, fun a ha => hbuf a ?_⟩
    rintro ⟨hread, hwait, hidx⟩
    simp [hread, hwait, hidx] at ha
  obtain ⟨rest, hcase⟩ := step_cases h
  cases hcase with
  | block _ hexec => exact turn_keepsBorrowed (s := { s with inputs := rest }) hexec
  | command v _ hwrite =>
    rcases commandWrite_next hwrite with ⟨rfl, -⟩ | ⟨hidle, -⟩
    · exact ⟨rfl, rfl, rfl, rfl, fun _ _ => rfl⟩
    · exact absurd hidle hfsm
  | access f v ht => exact ht ▸ ⟨rfl, rfl, rfl, rfl, fun _ _ => rfl⟩
  | store a h l n m hidle _ _ => exact absurd hidle hfsm
  | reset hnext _ => exact absurd hnext hreset

/-! ### What writes RESULT (R26, R220) -/

/-- A turn of the BLOCK changes RESULT only where its poll enters the fail path. -/
theorem failPath_of_turn_result_ne (hwait : s.sub = .wait → s.fsm ∈ waitingPhases)
    (h : exec (phaseInstr s.fsm) s = .next t) (hne : t.result ≠ s.result) :
    s.sub = .wait ∧ t.phase = s.fsm ∧
      ((t.pend = .failed ∧ t.result = maskedAnswer s.cfg s.nextDraw) ∨
        (t.pend = .timedOut ∧ t.result = s.cfg.timeoutCode)) := by
  rcases phase_next h with ⟨-, rfl⟩ | ⟨-, -, q, -, rfl⟩ | ⟨hp, hs, q, -, rfl⟩ | ⟨-, hs, rfl⟩ |
    ⟨-, -, -, rfl⟩
  · exact absurd rfl hne
  · simp at hne
  · obtain ⟨o, r, ph, e, -⟩ := finishPhase_eq hp ((issuePrimitive_sub s q).trans hs)
    simp [e] at hne
  · obtain ⟨c, acc, -, -, -, ⟨-, e⟩ | ⟨m, n, code, q, e, -, -, hcode⟩ | ⟨m, q, j, e, -⟩⟩ :=
      poll_cases (hwait hs) s
    · simp [e] at hne
    · rw [e, failPath_phase, failPath_pend, failPath_result]
      exact ⟨hs, rfl, hcode.imp id fun ⟨hq, hc, _⟩ => ⟨hq, hc⟩⟩
    · simp [e] at hne
  · simp at hne

@[simp] theorem acceptTransfer_result (d : Direction) (s : State) :
    (acceptTransfer d s).result = 0x00#8 := by
  unfold acceptTransfer
  cases s.rateCfg <;> rfl

/-- A CMD write changes RESULT only where it is an accepted TRANSFER (R241). -/
theorem transfer_of_command_result_ne {v : Byte} (h : commandWrite v s = .next t)
    (hne : t.result ≠ s.result) :
    s.fsm = .idle ∧ (v = 0x02#8 ∨ v = 0x03#8) ∧ t.result = 0x00#8 := by
  rcases commandWrite_next h with
    ⟨rfl, -⟩ | ⟨hidle, ⟨-, rfl⟩ | ⟨-, rfl⟩ | ⟨hv, -, rfl⟩ | ⟨hv, -, rfl⟩ | ⟨-, rfl⟩⟩
  · exact absurd rfl hne
  · exact absurd rfl hne
  · exact absurd rfl hne
  · exact ⟨hidle, .inl hv, by simp⟩
  · exact ⟨hidle, .inr hv, by simp⟩
  · exact absurd rfl hne

/-- Settles O53: RESULT changes in a turn of the BLOCK, a CMD write or a reset, never in another
access. -/
theorem resultIsWrittenOnlyByTheBlock : Obligations.ResultIsWrittenOnlyByTheBlock := by
  intro s t hinv h hne
  obtain ⟨rest, hcase⟩ := step_cases h
  cases hcase with
  | block _ hexec =>
    obtain ⟨hs, hphase, hcode⟩ :=
      failPath_of_turn_result_ne (s := { s with inputs := rest }) hinv.waitOnly hexec hne
    exact .inr ⟨hs, hinv.waitOnly hs, hphase, hcode⟩
  | command v hcmd hwrite =>
    obtain ⟨hidle, rfl | rfl, hresult⟩ :=
      transfer_of_command_result_ne (s := { s with inputs := rest }) hwrite hne
    · exact .inl ⟨hresult, .inr ⟨hidle, .inl hcmd⟩⟩
    · exact .inl ⟨hresult, .inr ⟨hidle, .inr hcmd⟩⟩
  | access f v ht => exact absurd (ht ▸ rfl) hne
  | store a h l n m _ _ ht => exact absurd (ht ▸ rfl) hne
  | reset hnext ht => exact .inl ⟨ht ▸ rfl, .inl hnext⟩

/-! ### The invariant: what it does not read -/

/-- The state without the fields the invariant does not read. -/
def invView (s : State) : State :=
  { s with
    mah := 0x00#8, mal := 0x00#8, rateCfg := false, cmdRej := false, ctl := Controller.powerOn
    faulted := none, trace := [], accesses := [], inputs := [], env := [], draws := 0
    hostValue := 0x00#8 }

theorem inv_invView_iff : (invView s).Inv ↔ s.Inv :=
  ⟨fun h => { h with }, fun h => { h with }⟩

/-- A state that differs only in fields the invariant does not read keeps it. -/
theorem State.Inv.congr (h : s.Inv) (e : invView t = invView s) : t.Inv :=
  inv_invView_iff.1 (e ▸ inv_invView_iff.2 h)

@[simp] theorem invView_issuePrimitive (q : Primitive) (s : State) :
    invView (issuePrimitive q s) = invView s := by
  simp [invView]

/-- The phases outside a transfer. -/
def quietPhases : List Phase := [.idle, .config, .busStop]

theorem quietPhases_apart : ∀ p ∈ quietPhases, p ∉ transactionPhases ∧ p ≠ .failStop ∧
    p ∉ addressPhases ∧ p ∉ [Phase.restart, .addrR, .readData] ∧ p ≠ .readData ∧ p ≠ .writeData ∧
    p ≠ .stop := by
  decide

theorem idle_quiet : Phase.idle ∈ quietPhases := by decide

/-- The invariant outside a transfer: BUF, PHASE and the report of the last transfer. -/
theorem State.Inv.of_quiet (hfsm : s.fsm ∈ quietPhases) (hsub : s.sub = .issue)
    (hbuf : s.buf.wf = true) (hfollows : s.fsm ≠ .idle → s.phase = s.fsm)
    (hphase : s.phase ≠ .failStop) (hcomplete : s.outcome = .complete → s.result = 0x00#8)
    (hfailed : s.outcome = .failed → s.result &&& s.cfg.statusMask = s.result)
    (htimedOut : s.outcome = .timedOut → s.result = s.cfg.timeoutCode)
    (hbounded : s.outcome = .timedOut ∨ s.pend = .timedOut → s.cfg.pollLimit ≠ none) : s.Inv := by
  obtain ⟨htransaction, hfailStop, haddress, hread, hreadData, hwriteData, hstop⟩ :=
    quietPhases_apart _ hfsm
  exact {
    buf := hbuf
    phaseFollows := fun hidle _ => hfollows hidle
    phaseNotFailStop := hphase
    failingPhase := fun h => absurd h hfailStop
    waitOnly := by simp [hsub]
    evenSla := fun h => absurd h htransaction
    idxZero := fun h => absurd h haddress
    readPhases := fun h => absurd h hread
    readIdx := fun h => absurd h hreadData
    writeIdx := fun h => absurd h hwriteData
    stopIdx := fun h => absurd h hstop
    resultZero := fun h => absurd h htransaction
    outcomeNone := by simp [htransaction, hfailStop]
    resultComplete := hcomplete
    resultFailed := by simpa [hfailStop] using hfailed
    resultTimedOut := by simpa [hfailStop] using htimedOut
    timedOutBounded := hbounded
    pollsBounded := by simp [hsub] }

/-- What the invariant asks of `dir`, LEN and IDX in a transaction (R28, R190, R195, R216). -/
structure DataIndex (s : State) : Prop where
  address : s.fsm ∈ addressPhases → s.idx = 0#8
  read : s.fsm ∈ [Phase.restart, .addrR, .readData] → s.dir = .read
  readData : s.fsm = .readData → s.idx.toNat < readCount s.len
  writeData : s.fsm = .writeData → s.dir = .write ∧ s.idx.toNat < s.len.toNat
  stop : s.fsm = .stop →
    s.idx.toNat = match s.dir with | .write => s.len.toNat | .read => readCount s.len

theorem DataIndex.of_address (hfsm : s.fsm ∈ [Phase.start, .addrW, .memH, .memL])
    (hidx : s.idx = 0#8) : DataIndex s := by
  obtain ⟨hread, hreadData, hwriteData, hstop⟩ :=
    (by decide : ∀ p ∈ [Phase.start, .addrW, .memH, .memL],
      p ∉ [Phase.restart, .addrR, .readData] ∧ p ≠ .readData ∧ p ≠ .writeData ∧ p ≠ .stop) _ hfsm
  exact ⟨fun _ => hidx, fun h => absurd h hread, fun h => absurd h hreadData,
    fun h => absurd h hwriteData, fun h => absurd h hstop⟩

theorem DataIndex.of_readAddress (hfsm : s.fsm = .restart ∨ s.fsm = .addrR) (hidx : s.idx = 0#8)
    (hdir : s.dir = .read) : DataIndex s := by
  refine ⟨fun _ => hidx, fun _ => hdir, ?_, ?_, ?_⟩ <;> rcases hfsm with e | e <;> simp [e]

theorem DataIndex.of_readData (hfsm : s.fsm = .readData) (hdir : s.dir = .read)
    (hidx : s.idx.toNat < readCount s.len) : DataIndex s :=
  ⟨by simp [hfsm, addressPhases], fun _ => hdir, fun _ => hidx, by simp [hfsm], by simp [hfsm]⟩

theorem DataIndex.of_writeData (hfsm : s.fsm = .writeData) (hdir : s.dir = .write)
    (hidx : s.idx.toNat < s.len.toNat) : DataIndex s :=
  ⟨by simp [hfsm, addressPhases], by simp [hfsm], by simp [hfsm], fun _ => ⟨hdir, hidx⟩,
    by simp [hfsm]⟩

theorem DataIndex.of_stop (hfsm : s.fsm = .stop)
    (hidx : s.idx.toNat = match s.dir with | .write => s.len.toNat | .read => readCount s.len) :
    DataIndex s :=
  ⟨by simp [hfsm, addressPhases], by simp [hfsm], by simp [hfsm], by simp [hfsm], fun _ => hidx⟩

/-- The invariant at the ISSUE step of a transaction phase. -/
theorem State.Inv.of_transaction (hfsm : s.fsm ∈ transactionPhases) (hphase : s.phase = s.fsm)
    (hsub : s.sub = .issue) (hbuf : s.buf.wf = true) (hsla : s.sla.getLsbD 0 = false)
    (hresult : s.result = 0x00#8) (houtcome : s.outcome = .none)
    (hbounded : s.pend = .timedOut → s.cfg.pollLimit ≠ none) (hindex : DataIndex s) : s.Inv := by
  have hne : s.fsm ≠ .failStop := (by decide : ∀ p ∈ transactionPhases, p ≠ .failStop) _ hfsm
  exact {
    buf := hbuf
    phaseFollows := fun _ _ => hphase
    phaseNotFailStop := hphase ▸ hne
    failingPhase := fun h => absurd h hne
    waitOnly := by simp [hsub]
    evenSla := fun _ => hsla
    idxZero := hindex.address
    readPhases := hindex.read
    readIdx := hindex.readData
    writeIdx := hindex.writeData
    stopIdx := hindex.stop
    resultZero := fun _ => hresult
    outcomeNone := fun _ => houtcome
    resultComplete := fun _ => hresult
    resultFailed := by simp [houtcome, hne]
    resultTimedOut := by simp [houtcome, hne]
    timedOutBounded := by simpa [houtcome] using hbounded
    pollsBounded := by simp [hsub] }

theorem mem_transactionPhases {p : Phase} (hp : p ∈ waitingPhases) : p ∈ transactionPhases :=
  List.mem_append_left _ hp

/-- The invariant in FAIL_STOP: PHASE is the failing phase, RESULT what `pend` will report. -/
theorem State.Inv.of_failStop (hfsm : s.fsm = .failStop) (hsub : s.sub = .issue)
    (hbuf : s.buf.wf = true) (hphase : s.phase ∈ waitingPhases) (houtcome : s.outcome = .none)
    (hfailed : s.pend = .failed → s.result &&& s.cfg.statusMask = s.result)
    (htimedOut : s.pend = .timedOut → s.result = s.cfg.timeoutCode ∧ s.cfg.pollLimit ≠ none) :
    s.Inv where
  buf := hbuf
  phaseFollows _ h := absurd hfsm h
  phaseNotFailStop := (by decide : ∀ p ∈ waitingPhases, p ≠ .failStop) _ hphase
  failingPhase _ := hphase
  waitOnly h := by simp [hsub] at h
  evenSla h := by simp [hfsm, transactionPhases, waitingPhases] at h
  idxZero h := by simp [hfsm, addressPhases] at h
  readPhases h := by simp [hfsm] at h
  readIdx h := by simp [hfsm] at h
  writeIdx h := by simp [hfsm] at h
  stopIdx h := by simp [hfsm] at h
  resultZero h := by simp [hfsm, transactionPhases, waitingPhases] at h
  outcomeNone _ := houtcome
  resultComplete h := by simp [houtcome] at h
  resultFailed h := hfailed (by simpa [houtcome, hfsm] using h)
  resultTimedOut h := (htimedOut (by simpa [houtcome, hfsm] using h)).1
  timedOutBounded h := (htimedOut (by simpa [houtcome] using h)).2
  pollsBounded h := by simp [hsub] at h

/-! ### The invariant: HOST's accesses and the reset input -/

/-- HOST writes the descriptor and BUF while the BLOCK is idle (R77, R255). -/
theorem State.Inv.store (h : s.Inv) (hidle : s.fsm = .idle) (a n : Byte) {m : Memory}
    (hm : m.wf = true) : State.Inv { s with sla := a, len := n, buf := m } := by
  have hsub : s.sub = .issue := by
    cases hs : s.sub
    · rfl
    · simpa [hidle, waitingPhases] using h.waitOnly hs
  exact .of_quiet (by simp [hidle, quietPhases]) hsub hm (absurd hidle) h.phaseNotFailStop
    h.resultComplete (fun e => h.resultFailed (.inl e)) (fun e => h.resultTimedOut (.inl e))
    h.timedOutBounded

/-- Every value of R60 agrees with the invariant, whatever the configuration. -/
theorem inv_applyReset (s : State) : (applyReset s).Inv :=
  .of_quiet idle_quiet rfl reset_buf_wf (absurd rfl) nofun nofun nofun nofun nofun

/-- A phase outside a transfer leaves the last report as it is (R243, R244, R247, R248). -/
theorem State.Inv.enterPhase_quiet (h : s.Inv) {p : Phase} (hp : p ∈ quietPhases) :
    (enterPhase p s).Inv :=
  .of_quiet hp rfl h.buf (fun _ => rfl) (quietPhases_apart p hp).2.1 h.resultComplete
    (fun e => h.resultFailed (.inl e)) (fun e => h.resultTimedOut (.inl e)) h.timedOutBounded

/-- What an accepted TRANSFER gives every field the invariant reads (R241). -/
theorem invView_acceptTransfer (d : Direction) (s : State) :
    invView (acceptTransfer d s) = invView { s with
      fsm := .start, phase := .start, sub := .issue, dir := d, result := 0x00#8, outcome := .none
      idx := 0x00#8, polls := 0 } := by
  unfold acceptTransfer
  cases s.rateCfg <;> rfl

/-- An accepted TRANSFER starts with an even SLA (R250). -/
theorem State.Inv.acceptTransfer (h : s.Inv) (hsla : s.sla.getLsbD 0 = false) (d : Direction) :
    (acceptTransfer d s).Inv := by
  refine State.Inv.congr (.of_transaction ?_ rfl rfl ?_ ?_ rfl rfl ?_ (.of_address ?_ rfl))
    (invView_acceptTransfer d s)
  · simp [transactionPhases, waitingPhases]
  · exact h.buf
  · exact hsla
  · exact fun e => h.timedOutBounded (.inr e)
  · simp

/-- A CMD write keeps the invariant (R240). -/
theorem State.Inv.commandWrite (h : s.Inv) {v : Byte} (hw : commandWrite v s = .next t) :
    t.Inv := by
  rcases commandWrite_next hw with
    ⟨rfl, -⟩ | ⟨-, ⟨-, rfl⟩ | ⟨-, rfl⟩ | ⟨-, hsla, rfl⟩ | ⟨-, hsla, rfl⟩ | ⟨-, rfl⟩⟩
  · exact h.congr rfl
  · exact h.congr rfl
  · exact (h.enterPhase_quiet (p := .config) (by decide)).congr rfl
  · exact h.acceptTransfer hsla .write
  · exact h.acceptTransfer hsla .read
  · exact (h.enterPhase_quiet (p := .busStop) (by decide)).congr rfl

/-! ### The invariant: the BLOCK's own turns -/

theorem Pend.outcome_ne_complete (q : Pend) : q.outcome ≠ .complete := by cases q <;> nofun

theorem Pend.outcome_eq_failed_iff {q : Pend} : q.outcome = .failed ↔ q = .failed := by
  cases q <;> simp [Pend.outcome]

theorem Pend.outcome_eq_timedOut_iff {q : Pend} : q.outcome = .timedOut ↔ q = .timedOut := by
  cases q <;> simp [Pend.outcome]

/-- The completion flag has been read as 0 and the limit is not reached (R145). -/
theorem State.Inv.countPolls (h : s.Inv) {n : Nat} (hn : ∀ l, s.cfg.pollLimit = some l → n < l) :
    State.Inv { s with polls := n } :=
  { h with pollsBounded := fun _ => hn }

/-- A WAIT begins with no poll made, and R9 allows at least one (R142). -/
theorem State.Inv.enterWait (h : s.Inv) (hwf : s.cfg.wf = true) (hfsm : s.fsm ∈ waitingPhases) :
    (enterWait s).Inv := by
  obtain ⟨-, -, -, -, -, hlimit, -⟩ := s.cfg.wf_iff.1 hwf
  exact { h with waitOnly := fun _ => hfsm, pollsBounded := fun _ => hlimit }

/-- A phase whose primitive does not wait returns to IDLE and reports what it ends with (R217, R221,
R244, R248). -/
theorem State.Inv.finishPhase (h : s.Inv)
    (hfsm : s.fsm ∈ [Phase.config, .stop, .failStop, .busStop]) : (finishPhase s.fsm s).Inv := by
  simp only [List.mem_cons, List.not_mem_nil, or_false] at hfsm
  rcases hfsm with e | e | e | e <;> rw [e]
  · exact (h.enterPhase_quiet (p := .idle) (by decide)).congr rfl
  · have hresult : s.result = 0x00#8 := h.resultZero (by simp [e, transactionPhases])
    exact .of_quiet idle_quiet rfl h.buf (absurd rfl) nofun (fun _ => hresult) nofun nofun
      fun hp => h.timedOutBounded (.inr (hp.resolve_left nofun))
  · exact .of_quiet idle_quiet rfl h.buf (absurd rfl) h.phaseNotFailStop
      (absurd · s.pend.outcome_ne_complete)
      (fun hp => h.resultFailed (.inr ⟨e, Pend.outcome_eq_failed_iff.1 hp⟩))
      (fun hp => h.resultTimedOut (.inr ⟨e, Pend.outcome_eq_timedOut_iff.1 hp⟩))
      fun hp => h.timedOutBounded (.inr (hp.elim Pend.outcome_eq_timedOut_iff.1 id))
  · exact (h.enterPhase_quiet (p := .idle) (by decide)).congr rfl

/-- The fail path reports from the failing phase: a masked status with FAILED, TIMEOUT_CODE with
TIMED_OUT (R220). -/
theorem State.Inv.failPath (h : s.Inv) (hfsm : s.fsm ∈ waitingPhases) {code : Byte} {q : Pend}
    {m : Memory} (n : Nat) (hm : m.wf = true)
    (hfailed : q = .failed → code &&& s.cfg.statusMask = code)
    (htimedOut : q = .timedOut → code = s.cfg.timeoutCode ∧ s.cfg.pollLimit ≠ none) :
    (failPath code q s.fsm { s with buf := m, polls := n }).Inv := by
  have houtcome : s.outcome = .none := h.outcomeNone (.inl (mem_transactionPhases hfsm))
  have hphase : s.fsm ≠ .failStop := (by decide : ∀ p ∈ waitingPhases, p ≠ .failStop) _ hfsm
  rcases failPath_cases { s with buf := m, polls := n } code q s.fsm with ⟨-, e⟩ | ⟨-, e⟩ <;> rw [e]
  · exact .of_failStop rfl rfl hm hfsm houtcome hfailed htimedOut
  · exact .of_quiet idle_quiet rfl hm (absurd rfl) hphase (absurd · q.outcome_ne_complete)
      (fun hq => hfailed (Pend.outcome_eq_failed_iff.1 hq))
      (fun hq => (htimedOut (Pend.outcome_eq_timedOut_iff.1 hq)).1)
      fun hq => (htimedOut (hq.elim Pend.outcome_eq_timedOut_iff.1 id)).2

theorem readCount_le (len : Byte) : readCount len ≤ 255 := by
  have := len.isLt
  unfold readCount
  omega

/-- IDX does not wrap below a count of at most 255 bytes. -/
theorem toNat_idx_succ {i : Byte} {n : Nat} (hi : i.toNat < n) (hn : n ≤ 255) :
    (i + 1#8).toNat = i.toNat + 1 := by
  rw [BitVec.toNat_add, BitVec.toNat_ofNat]
  omega

/-- The next byte of a read, or its end (R195). -/
theorem State.Inv.dataIndex_received (h : s.Inv) (hfsm : s.fsm = .readData) : DataIndex { s with
    fsm := if (s.idx + 1#8).toNat < readCount s.len then .readData else .stop
    idx := s.idx + 1#8 } := by
  have hdir : s.dir = .read := h.readPhases (by simp [hfsm])
  have hidx := h.readIdx hfsm
  have hsucc := toNat_idx_succ hidx (readCount_le s.len)
  split
  case isTrue hmore => exact .of_readData rfl hdir hmore
  case isFalse hlast => exact .of_stop rfl (by simp only [hdir]; omega)

/-- The next byte of a write, or its end (R190). -/
theorem State.Inv.dataIndex_sent (h : s.Inv) (hfsm : s.fsm = .writeData) : DataIndex { s with
    fsm := if (s.idx + 1#8).toNat < s.len.toNat then .writeData else .stop
    idx := s.idx + 1#8 } := by
  obtain ⟨hdir, hidx⟩ := h.writeIdx hfsm
  have hsucc := toNat_idx_succ hidx (by have := s.len.isLt; omega)
  split
  case isTrue hmore => exact .of_writeData rfl hdir hmore
  case isFalse hlast => exact .of_stop rfl (by simp only [hdir]; omega)

/-- A completed poll fails in its phase or moves on, with IDX and `dir` as the next phase is entered
with (R211). -/
theorem State.Inv.completePhase (h : s.Inv) (hfsm : s.fsm ∈ waitingPhases) :
    (completePhase s.fsm s).Inv := by
  have htransaction := mem_transactionPhases hfsm
  obtain ⟨reads, m, -, hother, hread, hnext⟩ := completePhase_cases hfsm s
  have hm : m.wf = true := by
    by_cases hp : s.fsm = .readData
    · exact hread hp ▸ storeReceived_wf s h.buf
    · exact hother hp ▸ h.buf
  have hlogged : State.Inv { s with accesses := s.accesses ++ reads } := h.congr rfl
  rcases hnext with ⟨-, -, -, e⟩ | ⟨q, j, e, hq⟩ <;> rw [e]
  · exact hlogged.failPath hfsm s.polls hm (fun _ => by simp [State.maskedStatus, BitVec.and_assoc])
      nofun
  · suffices hsucc : q ∈ transactionPhases ∧ DataIndex { s with fsm := q, idx := j } by
      obtain ⟨hq, hindex⟩ := hsucc
      exact .of_transaction hq rfl rfl hm (h.evenSla htransaction) (h.resultZero htransaction)
        (h.outcomeNone (.inl htransaction)) (fun hp => h.timedOutBounded (.inr hp))
        { hindex with }
    have hzero : s.fsm ∈ addressPhases → s.idx = 0#8 := h.idxZero
    rcases hq with ⟨hp, rfl, rfl⟩ | ⟨hp, rfl, rfl⟩ | ⟨hp, rfl, rfl⟩ |
      ⟨hp, rfl, ⟨hdir, rfl⟩ | ⟨hdir, hlen, rfl⟩ | ⟨hdir, hlen, rfl⟩⟩ | ⟨hp, rfl, rfl⟩ |
      ⟨hp, rfl, rfl⟩ | ⟨hp, rfl, rfl⟩ | ⟨hp, rfl, rfl⟩ <;> rw [hp] at hzero
    · exact ⟨by decide, .of_address (by simp) (hzero (by decide))⟩
    · exact ⟨by decide, .of_address (by simp) (hzero (by decide))⟩
    · exact ⟨by decide, .of_address (by simp) (hzero (by decide))⟩
    · exact ⟨by decide, .of_readAddress (.inl rfl) (hzero (by decide)) hdir⟩
    · exact ⟨by decide, .of_stop rfl (by simp [hdir, hlen, hzero (by decide)])⟩
    · have hpos : 0 < s.len.toNat := by bv_omega
      exact ⟨by decide, .of_writeData rfl hdir (by simpa [hzero (by decide)] using hpos)⟩
    · exact ⟨by decide, .of_readAddress (.inr rfl) (hzero (by decide))
        (h.readPhases (by simp [hp]))⟩
    · exact ⟨by decide, .of_readData rfl (h.readPhases (by simp [hp]))
        (by simp [hzero (by decide), readCount])⟩
    · exact ⟨by split <;> decide, h.dataIndex_received hp⟩
    · exact ⟨by split <;> decide, h.dataIndex_sent hp⟩

/-- A poll keeps the invariant: it completes the phase, counts a miss below the limit, or times out at
the limit (R145). -/
theorem State.Inv.poll (h : s.Inv) (hfsm : s.fsm ∈ waitingPhases) (hsub : s.sub = .wait) :
    (poll s.fsm s).Inv := by
  have hshown : (ctlRead .control (showDraw s.nextDraw s)).Inv := h.congr rfl
  rcases pollWith_cases s s.nextDraw s.fsm with ⟨-, e⟩ | ⟨-, hlimit, e⟩ | ⟨-, hlimit, e⟩ <;>
    rw [Machine.poll, e]
  · exact hshown.completePhase hfsm
  · refine hshown.countPolls fun l hl => Nat.lt_of_le_of_ne (h.pollsBounded hsub l hl) ?_
    rintro rfl
    exact hlimit hl
  · exact hshown.failPath hfsm (s.polls + 1) h.buf nofun fun _ => ⟨rfl, by simp [hlimit]⟩

/-- A turn of the BLOCK keeps the invariant (R211). -/
theorem State.Inv.turn (h : s.Inv) (hwf : s.cfg.wf = true)
    (hexec : exec (phaseInstr s.fsm) s = .next t) : t.Inv := by
  have hissued : ∀ q, (issuePrimitive q s).Inv := fun q => h.congr (invView_issuePrimitive q s)
  rcases phase_next hexec with ⟨-, rfl⟩ | ⟨hp, -, q, -, rfl⟩ | ⟨hp, -, q, -, rfl⟩ | ⟨-, hs, rfl⟩ |
    ⟨-, -, -, rfl⟩
  · exact h
  · exact (hissued q).enterWait (by simpa using hwf) (by simpa using hp)
  · simpa using (hissued q).finishPhase (by simpa using hp)
  · exact h.poll (h.waitOnly hs) hs
  · exact h.congr rfl

/-- Settles O12: each of the five cases of a step keeps the invariant. -/
theorem stepKeepsInv : Obligations.StepKeepsInv := by
  intro s t hinv h
  obtain ⟨hwf, -, -⟩ := step_next h
  obtain ⟨rest, hcase⟩ := step_cases h
  have hpopped : State.Inv { s with inputs := rest } := hinv.congr rfl
  cases hcase with
  | block _ hexec => exact hpopped.turn hwf hexec
  | command v _ hwrite => exact hpopped.commandWrite hwrite
  | access f v ht => exact hinv.congr (ht ▸ rfl)
  | store a h l n m hidle hm ht => exact (hinv.store hidle a n (hm hinv.buf)).congr (ht ▸ rfl)
  | reset _ ht => exact ht ▸ inv_applyReset _

end Sys2Proof.Machine

/-! PROOFS. The HOST window (20_memory.md): what an access does at each offset, what it leaves
unchanged, and the accesses by address and width. -/

namespace Sys2Proof.Machine

variable {s : State} {off i : Nat}

/-! ### What an offset names (R20, R70, R72) -/

/-- Above the nine registers an offset names a byte of BUF, or nothing. -/
theorem locate_of_registers_le (c : Config) (h : 9 ≤ off) :
    locate c off = if 0x100 ≤ off ∧ off < 0x200 ∧ off - 0x100 < c.bufSize then .buf (off - 0x100)
      else .unmapped := by
  obtain ⟨k, rfl⟩ := Nat.exists_eq_add_of_le' h
  rfl

theorem locate_buf {c : Config} (hi : i < 256) (hsize : i < c.bufSize) :
    locate c (0x100 + i) = .buf i := by
  rw [locate_of_registers_le c (by omega), Nat.add_sub_cancel_left, if_pos (by omega)]

theorem locate_unmapped (c : Config) (h : (0x009 ≤ off ∧ off ≤ 0x0FF) ∨ 0x200 ≤ off) :
    locate c off = .unmapped := by
  rw [locate_of_registers_le c (by omega), if_neg (by omega)]

/-! ### An access to BUF and to an unmapped offset -/

theorem exec_hostWrite_buf (hi : i < 256) (hsize : i < s.cfg.bufSize) (v : Byte) :
    exec (.hostWrite (0x100 + i) v) s = .next (bufWrite i v s) := by
  rw [exec_hostWrite, execHostWrite, locate_buf hi hsize]

theorem exec_hostRead_buf (hi : i < 256) (hsize : i < s.cfg.bufSize) :
    exec (.hostRead (0x100 + i)) s = .next (bufRead i s) := by
  rw [exec_hostRead, execHostRead, locate_buf hi hsize]

theorem exec_hostWrite_unmapped (h : (0x009 ≤ off ∧ off ≤ 0x0FF) ∨ 0x200 ≤ off) (v : Byte) :
    exec (.hostWrite off v) s = .next (recordFault .unmappedOffset s) := by
  rw [exec_hostWrite, execHostWrite, locate_unmapped s.cfg h]

theorem exec_hostRead_unmapped (h : (0x009 ≤ off ∧ off ≤ 0x0FF) ∨ 0x200 ≤ off) :
    exec (.hostRead off) s = .next (recordFault .unmappedOffset s) := by
  rw [exec_hostRead, execHostRead, locate_unmapped s.cfg h]

/-- The first fault of a run is the recorded one (R12). -/
theorem recordFault_of_none (f : Fault) (h : s.faulted = none) :
    recordFault f s = { s with faulted := some f } := by
  simp [recordFault, h]

theorem bufWrite_idle (i : Nat) (v : Byte) (h : s.busy = false) :
    bufWrite i v s = { s with buf := s.buf.write i v } := by
  simp [bufWrite, h]

theorem bufWrite_busy (i : Nat) (v : Byte) (h : s.busy = true) :
    bufWrite i v s = recordFault .bufWhileBusy s := by
  simp [bufWrite, h]

theorem bufRead_written {b : Byte} (h : s.busy = false) (hb : s.buf.read i = some b) :
    bufRead i s = returnValue b s := by
  simp [bufRead, h, hb]

theorem bufRead_unwritten (h : s.busy = false) (hb : s.buf.read i = none) :
    bufRead i s = recordFault .bufReadUnwritten s := by
  simp [bufRead, h, hb]

theorem bufRead_busy (i : Nat) (h : s.busy = true) :
    bufRead i s = recordFault .bufWhileBusy s := by
  simp [bufRead, h]

/-- Settles O15: an idle BLOCK leaves BUF to HOST, and a write sets one byte of it. -/
theorem bufWriteAndRead : Obligations.BufWriteAndRead := by
  intro s i v hidle hi hsize
  rw [exec_hostWrite_buf hi hsize, exec_hostRead_buf hi hsize, bufWrite_idle i v hidle]
  refine ⟨rfl, s.buf.read_write_same i v, fun a ha => s.buf.read_write_other i a v ha, ?_, ?_⟩
  · intro b hb
    rw [bufRead_written hidle hb, returnValue]
  · intro hb hf
    exact ⟨_, rfl, by rw [bufRead_unwritten hidle hb, recordFault_of_none _ hf]⟩

/-- Settles O16: both accesses meet the borrowed buffer before its bytes. -/
theorem bufIsBorrowedWhileBusy : Obligations.BufIsBorrowedWhileBusy := by
  intro s i v hbusy hf hi hsize
  rw [exec_hostWrite_buf hi hsize, exec_hostRead_buf hi hsize, bufWrite_busy i v hbusy,
    bufRead_busy i hbusy, recordFault_of_none _ hf]
  exact ⟨rfl, _, rfl, rfl⟩

/-- Settles O18: each of the four offsets names a register HOST cannot write. -/
theorem readOnlyRegistersIgnoreWrites : Obligations.ReadOnlyRegistersIgnoreWrites := by
  intro s off v hlo hhi
  obtain rfl | rfl | rfl | rfl : off = 5 ∨ off = 6 ∨ off = 7 ∨ off = 8 := by omega
  all_goals rfl

/-- Settles O19: both ranges name nothing, whatever `BUF_SIZE`. -/
theorem unmappedOffsetsFault : Obligations.UnmappedOffsetsFault := by
  intro s off v hf hoff
  rw [exec_hostWrite_unmapped hoff, exec_hostRead_unmapped hoff, recordFault_of_none _ hf]
  exact ⟨⟨_, rfl, rfl⟩, _, rfl, rfl⟩

/-! ### The frame of a HOST access -/

/-- Settles O21: an access records a fault, changes nothing, returns a value or stores one byte. -/
theorem hostAccessFrame : Obligations.HostAccessFrame := by
  refine ⟨fun s t off h => ?_, fun s t off v hcmd h => ?_⟩
  · rcases hostRead_next h with ⟨f, rfl⟩ | ⟨v, rfl⟩
    · exact ⟨rfl, fun _ => rfl⟩
    · exact ⟨rfl, fun _ => rfl⟩
  · rcases hostWrite_next h with ⟨hoff, -⟩ | ⟨-, ⟨f, rfl⟩ | rfl | ⟨-, hstore⟩⟩
    · exact absurd hoff hcmd
    · simp [recordFault]
    · simp
    · rcases hstore with ⟨rfl, rfl⟩ | ⟨rfl, rfl⟩ | ⟨rfl, rfl⟩ | ⟨rfl, rfl⟩ | ⟨i, -, rfl, rfl⟩
      · simp
      · simp
      · simp
      · simp
      · have hother : ∀ a, 0x100 + i ≠ 0x100 + a → (s.buf.write i v).read a = s.buf.read a :=
          fun a ha => s.buf.read_write_other i a v (by omega)
        simpa using hother

/-! ### Accesses by address and width (R70, R71) -/

/-- A raw access that comes next in a running machine is the whole step. -/
theorem step_raw {a : RawAccess} {rest : List Input} (hwf : s.cfg.wf = true) (hf : s.faulted = none)
    (hin : s.inputs = .raw a :: rest) : step s = rawTurn a { s with inputs := rest } := by
  rw [step_eq_turn hwf hf]
  simp [turn, popInput, hin]

/-- An access that ends below `HOST_BASE` is not the BLOCK's (log entry 16). -/
theorem rawTurn_below {a : RawAccess} (h : a.limit ≤ s.cfg.hostBase) : rawTurn a s = .next s :=
  if_pos h

/-- In the window the width is checked first (log entry 16). -/
theorem rawTurn_width {a : RawAccess} (h : s.cfg.hostBase < a.limit) (hbits : a.bits ≠ 8) :
    rawTurn a s = .next (recordFault .accessWidth s) := by
  rw [rawTurn, if_neg h.not_ge, if_pos hbits]

/-- A byte access at an offset of the window is the HOST access at that offset. -/
theorem rawTurn_byte {a : RawAccess} (hbits : a.bits = 8) (haddr : a.addr = s.cfg.hostBase + off) :
    (a.kind = .write → rawTurn a s = exec (.hostWrite off a.data) s) ∧
    (a.kind = .read → rawTurn a s = exec (.hostRead off) s) := by
  have hwindow : ¬ a.limit ≤ s.cfg.hostBase := by
    rw [RawAccess.limit_byte hbits]
    omega
  rw [rawTurn, if_neg hwindow, if_neg (not_not.2 hbits), haddr, Nat.add_sub_cancel_left]
  exact ⟨fun hk => by rw [hk], fun hk => by rw [hk]⟩

/-- Settles O20: the end of an access decides whether it is the BLOCK's, then its width. -/
theorem onlyByteAccesses : Obligations.OnlyByteAccesses := by
  intro s k bits addr v rest hrun hin
  obtain ⟨hwf, hf⟩ := hrun
  rw [step_raw hwf hf hin]
  refine ⟨fun hbits hreach => ?_, fun off hbits haddr => ?_,
    fun hbelow hend => ?_⟩
  · rw [rawTurn_width (by simp only [RawAccess.limit]; omega) hbits,
      recordFault_of_none (s := { s with inputs := rest }) _ hf]
  · exact rawTurn_byte (a := ⟨k, bits, addr, v⟩) hbits haddr
  · exact rawTurn_below (by simp only [RawAccess.limit]; omega)

end Sys2Proof.Machine

/-! PROOFS. Encodings (30_encoding.md): the rows of the CMD bytes, the two address bytes, the words a
step writes to CONTROL, and what of ENV's answer a completion reads. -/

namespace Sys2Proof

/-! ### Space CMD: every byte is one row (R100 to R102) -/

theorem exists_eq_rsv_append_op (v : Byte) : ∃ (rsv : BitVec 5) (op : BitVec 3), v = rsv ++ op :=
  ⟨v.extractLsb' 3 5, v.extractLsb' 0 3, by
    rw [BitVec.extractLsb'_append_extractLsb'_eq_extractLsb' (by rfl), BitVec.extractLsb'_eq_self]⟩

/-- Settles O3: bits 7:3 make a byte a reserved row, and where they are zero bits 2:0 choose one of the
eight other rows. -/
theorem everyCmdByteIsOneRow : Obligations.EveryCmdByteIsOneRow := by
  intro c v
  obtain ⟨rsv, op, rfl⟩ := exists_eq_rsv_append_op v
  by_cases hrsv : rsv = 0#5
  · subst hrsv
    have hop : op = 0#3 ∨ op = 1#3 ∨ op = 2#3 ∨ op = 3#3 ∨ op = 4#3 ∨ op = 5#3 ∨ op = 6#3 ∨
        op = 7#3 := by
      revert op
      decide
    rcases hop with rfl | rfl | rfl | rfl | rfl | rfl | rfl | rfl
    all_goals exact ⟨rfl, rfl, rfl, by simp [decodeCmd]⟩
  · have hfield : (rsv ++ op).extractLsb' 3 5 = rsv := BitVec.extractLsb'_append_eq_left
    rw [decodeCmd_reserved op hrsv, hfield]
    exact ⟨rfl, decide_eq_true hrsv, rfl, fun _ => .inl hrsv, fun _ => by simp⟩

/-! ### Space BUS_ADDR: the two address bytes (R104, R105) -/

/-- The address stands in bits 7:1, the direction in bit 0 (R104). -/
theorem toNat_addressByte (a : BitVec 7) (d : BitVec 1) :
    (addressByte a d).toNat = 2 * a.toNat + d.toNat := by
  rw [addressByte, BitVec.toNat_append, ← Nat.shiftLeft_add_eq_or_of_lt d.isLt, Nat.shiftLeft_eq]
  omega

theorem slaveField_addressByte (a : BitVec 7) (d : BitVec 1) : slaveField (addressByte a d) = a :=
  BitVec.extractLsb'_append_eq_left

theorem addressByte_write (a : BitVec 7) : addressByte a 0#1 = a.setWidth 8 <<< 1 := by
  apply BitVec.eq_of_toNat_eq
  rw [toNat_addressByte, BitVec.toNat_shiftLeft, BitVec.toNat_setWidth, Nat.shiftLeft_eq]
  have := a.isLt
  simp only [BitVec.toNat_ofNat]
  omega

theorem addressByte_read (a : BitVec 7) : addressByte a 1#1 = addressByte a 0#1 ||| 1#8 := by
  have hdir : (1#8 : Byte) = 0#7 ++ 1#1 := rfl
  rw [addressByte, addressByte, hdir, BitVec.or_append, BitVec.or_zero, BitVec.zero_or]

/-- A byte with bit 0 clear is the write byte of its address (R105). -/
theorem eq_addressByte_of_even {v : Byte} (h : v.getLsbD 0 = false) :
    v = addressByte (slaveField v) 0#1 := by
  have hdir : v.extractLsb' 0 1 = 0#1 := by
    ext k hk
    obtain rfl : k = 0 := by omega
    simpa using h
  rw [addressByte, slaveField, ← hdir,
    BitVec.extractLsb'_append_extractLsb'_eq_extractLsb' (by rfl), BitVec.extractLsb'_eq_self]

theorem toNat_addressByte_read (a : BitVec 7) :
    (addressByte a 1#1).toNat = (addressByte a 0#1).toNat + 1 := by
  simp [toNat_addressByte]

theorem addressByte_read_eq_add (a : BitVec 7) : addressByte a 1#1 = addressByte a 0#1 + 1#8 := by
  apply BitVec.eq_of_toNat_eq
  have := (addressByte a 1#1).isLt
  have := toNat_addressByte_read a
  simp only [BitVec.toNat_add, BitVec.toNat_ofNat]
  omega

/-- Settles O39: an even SLA is the write byte of its bits 7:1, so its two bytes are those of that
address. -/
theorem addressBytesDifferByOne : Obligations.AddressBytesDifferByOne := by
  refine ⟨fun a => ⟨addressByte_write a, ?_, addressByte_read_eq_add a,
    (toNat_addressByte_read a).symm, slaveField_addressByte a 0#1, slaveField_addressByte a 1#1⟩,
    fun s hs => ?_⟩
  · rw [addressByte_read, addressByte_write]
  · have hsla := eq_addressByte_of_even hs
    have hread : s.readAddr = addressByte (slaveField s.sla) 1#1 := by
      rw [addressByte_read_eq_add, ← hsla, Machine.State.readAddr]
    rw [hread, Machine.State.writeAddr, toNat_addressByte_read, addressByte_read, ← hsla]
    exact ⟨rfl, rfl, rfl⟩

end Sys2Proof

namespace Sys2Proof.Machine

variable {s t : State}

/-! ### What a step writes to ENV (R111) -/

/-- From `s` to `t` the BLOCK has written CONTROL with command words only, and STATUS never (R111). -/
def WritesOnlyCommandWords (s t : State) : Prop :=
  ∃ new, t.accesses = s.accesses ++ new ∧
    (∀ v, EnvAccess.write .control v ∈ new →
      v ∈ [s.cfg.cwStart, s.cfg.cwStop, s.cfg.cwTx, s.cfg.cwRxAck, s.cfg.cwRxNack]) ∧
    ∀ v, EnvAccess.write .status v ∉ new

theorem WritesOnlyCommandWords.of_no_write {new : List EnvAccess}
    (h : t.accesses = s.accesses ++ new) (hnew : ∀ r v, EnvAccess.write r v ∉ new) :
    WritesOnlyCommandWords s t :=
  ⟨new, h, fun v hv => absurd hv (hnew _ v), hnew _⟩

theorem WritesOnlyCommandWords.of_accesses_eq (h : t.accesses = s.accesses) :
    WritesOnlyCommandWords s t :=
  .of_no_write (new := []) (by simp [h]) (by simp)

theorem WritesOnlyCommandWords.congr {u : State} (h : WritesOnlyCommandWords s u)
    (e : t.accesses = u.accesses) : WritesOnlyCommandWords s t := by
  rwa [WritesOnlyCommandWords, e]

/-- Each primitive writes its own word to CONTROL, or none (R141, R146 to R150). -/
theorem issuePrimitive_writesOnlyCommandWords (q : Primitive) (s : State) :
    WritesOnlyCommandWords s (issuePrimitive q s) := by
  cases q with
  | setRate d =>
    cases hq : s.cfg.ratePrescaler with
    | none =>
      exact ⟨[.write .rate d], by simp [issuePrimitive, primitiveWrites, hq], by simp, by simp⟩
    | some p =>
      exact ⟨[.write .rate d, .write .prescaler (p.setWidth 8)],
        by simp [issuePrimitive, primitiveWrites, hq], by simp, by simp⟩
  | start => exact ⟨[.write .control s.cfg.cwStart], rfl, by simp, by simp⟩
  | stop => exact ⟨[.write .control s.cfg.cwStop], rfl, by simp, by simp⟩
  | tx b =>
    exact ⟨[.write .data b, .write .control s.cfg.cwTx],
      by simp [issuePrimitive, primitiveWrites], by simp, by simp⟩
  | rxAck => exact ⟨[.write .control s.cfg.cwRxAck], rfl, by simp, by simp⟩
  | rxNack => exact ⟨[.write .control s.cfg.cwRxNack], rfl, by simp, by simp⟩

@[simp] theorem finishPhase_accesses (p : Phase) (s : State) :
    (finishPhase p s).accesses = s.accesses := by
  cases p <;> simp [finishPhase]

/-- A completion only reads (R148 to R151). -/
theorem completePhase_accesses (p : Phase) (s : State) :
    ∃ reads, (completePhase p s).accesses = s.accesses ++ reads ∧
      ∀ r v, EnvAccess.write r v ∉ reads := by
  by_cases hp : p ∈ waitingPhases
  · obtain ⟨reads, m, hreads, -, -, ⟨-, -, -, e⟩ | ⟨q, j, e, -⟩⟩ := completePhase_cases hp s
    · exact ⟨reads, by simp [e], hreads⟩
    · exact ⟨reads, by simp [e], hreads⟩
  · cases p
    case idle | config | stop | failStop | busStop => exact ⟨[], by simp [completePhase], by simp⟩
    all_goals exact absurd (by decide) hp

/-- A poll only reads (R145). -/
theorem poll_writesOnlyCommandWords (p : Phase) (s : State) :
    WritesOnlyCommandWords s (poll p s) := by
  rcases pollWith_cases s s.nextDraw p with ⟨-, e⟩ | ⟨-, -, e⟩ | ⟨-, -, e⟩
  · obtain ⟨reads, hacc, hreads⟩ :=
      completePhase_accesses p (ctlRead .control (showDraw s.nextDraw s))
    exact .of_no_write (new := .read .control s.nextDraw.control :: reads)
      (by simp [poll, e, hacc, Controller.get]) (by simpa using hreads)
  · exact .of_no_write (new := [.read .control s.nextDraw.control])
      (by simp [poll, e, Controller.get]) (by simp)
  · exact .of_no_write (new := [.read .control s.nextDraw.control])
      (by simp [poll, e, Controller.get]) (by simp)

/-- A turn of the BLOCK issues one primitive, polls, or writes nothing (R142). -/
theorem turn_writesOnlyCommandWords {p : Phase} (h : exec (phaseInstr p) s = .next t) :
    WritesOnlyCommandWords s t := by
  rcases phase_next h with ⟨-, rfl⟩ | ⟨-, -, q, -, rfl⟩ | ⟨-, -, q, -, rfl⟩ | ⟨-, -, rfl⟩ |
    ⟨-, -, -, rfl⟩
  · exact .of_accesses_eq rfl
  · exact (issuePrimitive_writesOnlyCommandWords q s).congr rfl
  · exact (issuePrimitive_writesOnlyCommandWords q s).congr (finishPhase_accesses p _)
  · exact poll_writesOnlyCommandWords p s
  · exact .of_accesses_eq rfl

@[simp] theorem acceptTransfer_accesses (d : Direction) (s : State) :
    (acceptTransfer d s).accesses = s.accesses := by
  unfold acceptTransfer
  cases s.rateCfg <;> rfl

/-- A CMD write is no access of the BLOCK's (R240). -/
theorem accesses_of_commandWrite {v : Byte} (h : commandWrite v s = .next t) :
    t.accesses = s.accesses := by
  rcases commandWrite_next h with
    ⟨rfl, -⟩ | ⟨-, ⟨-, rfl⟩ | ⟨-, rfl⟩ | ⟨-, -, rfl⟩ | ⟨-, -, rfl⟩ | ⟨-, rfl⟩⟩
  · rfl
  · rfl
  · rfl
  · exact acceptTransfer_accesses .write s
  · exact acceptTransfer_accesses .read s
  · rfl

theorem step_writesOnlyCommandWords (h : step s = .next t) : WritesOnlyCommandWords s t := by
  obtain ⟨rest, hcase⟩ := step_cases h
  cases hcase with
  | block _ hexec => exact turn_writesOnlyCommandWords (s := { s with inputs := rest }) hexec
  | command v _ hwrite =>
    exact .of_accesses_eq (accesses_of_commandWrite (s := { s with inputs := rest }) hwrite)
  | access f v ht => exact .of_accesses_eq (ht ▸ rfl)
  | store a h l n m _ _ ht => exact .of_accesses_eq (ht ▸ rfl)
  | reset _ ht => exact .of_accesses_eq (ht ▸ rfl)

/-- Settles O4: the words by their bits, the default words by evaluation, and the steps by what each
event writes. -/
theorem controlHoldsOnlyCommandWords : Obligations.ControlHoldsOnlyCommandWords :=
  ⟨fun c _ _ hk => ⟨c.getLsbD_cwStart hk, c.getLsbD_cwStop hk, c.getLsbD_cwTx hk,
      c.getLsbD_cwRxAck hk, c.getLsbD_cwRxNack hk⟩,
    ⟨rfl, rfl, rfl, rfl, rfl⟩, fun _ _ h => step_writesOnlyCommandWords h⟩

/-! ### What of ENV's answer a completion reads (R51, R108) -/

/-! The operations that read no controller register commute with hiding the registers. -/

@[simp] theorem hideController_len (s : State) : (hideController s).len = s.len := rfl
@[simp] theorem hideController_dir (s : State) : (hideController s).dir = s.dir := rfl

@[simp] theorem hideController_enterPhase (p : Phase) (s : State) :
    hideController (enterPhase p s) = enterPhase p (hideController s) := rfl

@[simp] theorem hideController_failPath (code : Byte) (q : Pend) (p : Phase) (s : State) :
    hideController (failPath code q p s) = failPath code q p (hideController s) :=
  apply_ite hideController _ _ _

theorem hideController_missedPoll (p : Phase) (s : State) :
    hideController (missedPoll p s) = missedPoll p (hideController s) := by
  dsimp only [missedPoll]
  rw [apply_ite hideController, hideController_failPath]
  rfl

theorem hideController_afterMemL (s : State) :
    hideController (afterMemL s) = afterMemL (hideController s) := by
  cases hdir : s.dir with
  | read => simp [afterMemL, hdir]
  | write => by_cases hlen : s.len = 0#8 <;> simp [afterMemL, hdir, hlen]

theorem hideController_afterSent (s : State) :
    hideController (afterSent s) = afterSent (hideController s) := by
  rw [afterSent_eq, afterSent_eq]
  rfl

theorem hideController_afterReceived (s : State) :
    hideController (afterReceived s) = afterReceived (hideController s) := by
  rw [afterReceived_eq, afterReceived_eq]
  rfl

/-- Two states that differ in the controller's registers only, but not in the masked status, are
validated alike (R108, R175). -/
theorem hideController_validate {s' : State} (p : Phase) (e : Byte) {f : State → State}
    (hf : ∀ u, hideController (f u) = f (hideController u))
    (hmasked : s.maskedStatus = s'.maskedStatus) (hhide : hideController s = hideController s') :
    hideController (validate p e f s) = hideController (validate p e f s') := by
  unfold validate
  rw [hmasked]
  split
  · rw [hf, hf, hhide]
  · rw [hideController_failPath, hideController_failPath, hhide]

/-- A completion reads of the controller's registers the masked status and the data byte only. -/
theorem hideController_completePhase (p : Phase) {ctl : Controller} {acc : List EnvAccess}
    (hmasked : s.ctl.status &&& s.cfg.statusMask = ctl.status &&& s.cfg.statusMask)
    (hdata : s.ctl.data = ctl.data) :
    hideController (completePhase p s) =
      hideController (completePhase p { s with ctl := ctl, accesses := acc }) := by
  cases p
  case idle | config | stop | failStop | busStop | start | restart => rfl
  case addrW => exact hideController_validate _ _ (hideController_enterPhase _) hmasked rfl
  case memH => exact hideController_validate _ _ (hideController_enterPhase _) hmasked rfl
  case memL => exact hideController_validate _ _ hideController_afterMemL hmasked rfl
  case addrR => exact hideController_validate _ _ (hideController_enterPhase _) hmasked rfl
  case writeData => exact hideController_validate _ _ hideController_afterSent hmasked rfl
  case readData =>
    refine hideController_validate _ _ hideController_afterReceived hmasked ?_
    simp [hideController, storeReceived, ctlRead, State.bufIndex, hdata]

/-- A poll reads of ENV's answer the completion flag, the masked status and the data byte only. -/
theorem hideController_pollWith {d d' : EnvDraw} (p : Phase) (s : State) (hdata : d.data = d'.data)
    (hmasked : maskedAnswer s.cfg d = maskedAnswer s.cfg d')
    (hflag : d.completes s.cfg = d'.completes s.cfg) :
    hideController (pollWith d p s) = hideController (pollWith d' p s) := by
  unfold pollWith
  rw [hflag]
  split
  · exact hideController_completePhase p hmasked hdata
  · rw [hideController_missedPoll, hideController_missedPoll]
    rfl

/-- A WAIT step of a phase is a poll (R142). -/
theorem exec_phaseInstr_wait {p : Phase} (hp : p ∈ waitingPhases) (hs : s.sub = .wait) :
    exec (phaseInstr p) s = .next (poll p s) := by
  obtain ⟨t, h⟩ := exists_exec_eq_next (phaseInstr p) s
  rcases phase_next h with ⟨rfl, -⟩ | ⟨-, hissue, -⟩ | ⟨-, hissue, -⟩ | ⟨-, -, rfl⟩ | ⟨-, hissue, -⟩
  · simp [waitingPhases] at hp
  · simp [hs] at hissue
  · simp [hs] at hissue
  · exact h
  · simp [hs] at hissue

/-- Settles O50: each run is a poll with its own answer of one state, since the answer is used up, and
the poll reads no more of it than the two agree in. -/
theorem insignificantBitsDoNotMatter : Obligations.InsignificantBitsDoNotMatter := by
  rintro s d d' rest i hs ⟨p, rfl, hp⟩ hdata hmasked hflag
  have hnext : ∀ a : EnvDraw, exec (phaseInstr p) { s with env := a :: rest } =
      .next (pollWith a p { s with env := d :: rest }) :=
    fun _ => exec_phaseInstr_wait hp hs
  exact ⟨_, _, hnext d, hnext d', hideController_pollWith p _ hdata hmasked
    (Bool.eq_iff_iff.2 hflag)⟩

end Sys2Proof.Machine

/-! PROOFS. The bus primitives (40_bus_primitives.md): the ISSUE step of each, the poll of the
outstanding one, what a step adds to the bus trace, and the WAIT that `POLL_LIMIT` ends. -/

namespace Sys2Proof.Machine

variable {s t u : State}

/-! ### The primitives' ISSUE steps (R141, R146 to R150) -/

theorem issued_start (s : State) : enterWait (issuePrimitive .start s) = startIssued s := rfl

theorem issued_tx (b : Byte) (s : State) :
    enterWait (issuePrimitive (.tx b) s) = txIssued b s := by
  simp [issuePrimitive, primitiveWrites, emit, enterWait, ctlWrite, Controller.set, txIssued]

theorem issued_rxAck (s : State) : enterWait (issuePrimitive .rxAck s) = rxAckIssued s := rfl

theorem issued_rxNack (s : State) : enterWait (issuePrimitive .rxNack s) = rxNackIssued s := rfl

theorem issued_stop (s : State) : issuePrimitive .stop s = stopIssued s := rfl

/-- The prescaler field has two bits, so writing its byte stores the parameter itself (R113). -/
theorem issued_setRate (d : Byte) (s : State) : issuePrimitive (.setRate d) s = rateIssued d s := by
  cases hq : s.cfg.ratePrescaler <;>
    simp [issuePrimitive, primitiveWrites, emit, ctlWrite, Controller.set, rateIssued, hq]

/-- Settles O35: a primitive that waits is issued whatever the phase, and its writes are its rule's. -/
theorem waitingPrimitivesIssue : Obligations.WaitingPrimitivesIssue := by
  intro s hs
  have issue : ∀ q : Primitive, q.waits = true →
      runPhase s.fsm q s = enterWait (issuePrimitive q s) :=
    fun q hq => runPhase_issue_waits s s.fsm q hs hq
  refine ⟨?_, fun b => ?_, ?_, ?_⟩
  · rw [exec_start, execStart, issue _ rfl, issued_start]
  · rw [exec_tx, execTx, issue _ rfl, issued_tx]
  · rw [exec_rxAck, execRxAck, issue _ rfl, issued_rxAck]
  · rw [exec_rxNack, execRxNack, issue _ rfl, issued_rxNack]

/-- Settles O36: each of these rows runs phase `fsm` with a primitive of its own, which a WAIT step
does not look at. -/
theorem outstandingPrimitiveIsPolled : Obligations.OutstandingPrimitiveIsPolled := by
  intro s i hs hp hi
  have hrun : ∃ q, exec i s = .next (runPhase s.fsm q s) := by
    rcases hi with rfl | rfl | rfl | rfl | ⟨b, rfl⟩ | ⟨d, rfl⟩ <;> exact ⟨_, rfl⟩
  obtain ⟨q, hq⟩ := hrun
  rw [hq, runPhase_wait s s.fsm q hs, exec_phaseInstr_wait hp hs]

/-! ### The completion actions of the phases that do not wait (R217, R221, R244, R248) -/

/-! The state is in ISSUE already, so the return to IDLE leaves `sub` as it is. -/

theorem finishPhase_config (hs : s.sub = .issue) :
    finishPhase .config s = { s with rateCfg := true, phase := .idle, fsm := .idle } := by
  rw [finishPhase, toIdle, ← hs]

theorem finishPhase_stop (hs : s.sub = .issue) :
    finishPhase .stop s = { s with outcome := .complete, phase := .idle, fsm := .idle } := by
  rw [finishPhase, toIdle, ← hs]

theorem finishPhase_failStop (hs : s.sub = .issue) :
    finishPhase .failStop s = { s with outcome := s.pend.outcome, fsm := .idle } := by
  rw [finishPhase, leaveFailPath, ← hs]

theorem finishPhase_busStop (hs : s.sub = .issue) :
    finishPhase .busStop s = { s with phase := .idle, fsm := .idle } := by
  rw [finishPhase, toIdle, ← hs]

/-- The only step of STOP: its write and entry, then the completion action of a phase that issues it
(R147). -/
theorem exec_stop_issue (hs : s.sub = .issue) : exec .stop s = .next
    (if s.fsm ∈ [Phase.stop, .failStop, .busStop] then finishPhase s.fsm (stopIssued s)
      else stopIssued s) := by
  split
  case isTrue hp =>
    rw [exec_stop, execStop, runPhase_issue_ends s s.fsm .stop hs (decide_eq_true hp), issued_stop]
  case isFalse hp =>
    rw [exec_stop, execStop, runPhase_issue_only s s.fsm .stop hs rfl (decide_eq_false hp),
      issued_stop]

/-- The only step of SET_RATE: its writes and entry, then the completion action of CONFIG (R141). -/
theorem exec_setRate_issue (d : Byte) (hs : s.sub = .issue) : exec (.setRate d) s = .next
    (if s.fsm = .config then finishPhase .config (rateIssued d s) else rateIssued d s) := by
  split
  case isTrue hp =>
    rw [exec_setRate, execSetRate, runPhase_issue_ends s s.fsm (.setRate d) hs
      (decide_eq_true hp), issued_setRate, hp]
  case isFalse hp =>
    rw [exec_setRate, execSetRate, runPhase_issue_only s s.fsm (.setRate d) hs rfl
      (decide_eq_false hp), issued_setRate]

/-- Settles O37: the issuing phases run their completion action on the issued state, and the other
phases run none. -/
theorem stopAndSetRateIssue : Obligations.StopAndSetRateIssue := by
  intro s hs
  have hstop : (stopIssued s).sub = .issue := hs
  refine ⟨fun hp => ?_, fun hp => ?_, fun hp => ?_, fun hp => ?_, fun d hp => ?_, fun d hp => ?_⟩
  · rw [exec_stop_issue hs, hp, if_pos (by decide), finishPhase_stop hstop]
  · rw [exec_stop_issue hs, hp, if_pos (by decide), finishPhase_failStop hstop]
    rfl
  · rw [exec_stop_issue hs, hp, if_pos (by decide), finishPhase_busStop hstop]
  · rw [exec_stop_issue hs, if_neg hp]
  · rw [exec_setRate_issue d hs, if_pos hp, finishPhase_config (s := rateIssued d s) hs]
  · rw [exec_setRate_issue d hs, if_neg hp]

/-! ### What a step adds to the bus trace (R142, R143) -/

@[simp] theorem completePhase_trace (p : Phase) (s : State) :
    (completePhase p s).trace = s.trace := by
  by_cases hp : p ∈ waitingPhases
  · obtain ⟨reads, m, -, -, -, ⟨-, -, -, e⟩ | ⟨q, j, e, -⟩⟩ := completePhase_cases hp s
    · simp [e]
    · simp [e]
  · cases p
    case idle | config | stop | failStop | busStop => rfl
    all_goals exact absurd (by decide) hp

/-- A poll issues nothing (R145). -/
@[simp] theorem poll_trace (p : Phase) (s : State) : (poll p s).trace = s.trace := by
  rcases pollWith_cases s s.nextDraw p with ⟨-, e⟩ | ⟨-, -, e⟩ | ⟨-, -, e⟩ <;> simp [poll, e]

@[simp] theorem acceptTransfer_trace (d : Direction) (s : State) :
    (acceptTransfer d s).trace = s.trace := by
  unfold acceptTransfer
  cases s.rateCfg <;> rfl

/-- A CMD write issues nothing (R240). -/
theorem trace_of_commandWrite {v : Byte} (h : commandWrite v s = .next t) : t.trace = s.trace := by
  rcases commandWrite_next h with
    ⟨rfl, -⟩ | ⟨-, ⟨-, rfl⟩ | ⟨-, rfl⟩ | ⟨-, -, rfl⟩ | ⟨-, -, rfl⟩ | ⟨-, rfl⟩⟩
  · rfl
  · rfl
  · rfl
  · exact acceptTransfer_trace .write s
  · exact acceptTransfer_trace .read s
  · rfl

/-- In its ISSUE step from `s` to `t` the busy BLOCK has issued `q`: one that waits is then outstanding
in the same phase, and one that does not has ended its phase (R142). -/
def IssuesOne (q : Primitive) (s t : State) : Prop :=
  s.fsm ≠ .idle ∧ s.sub = .issue ∧ t.trace = s.trace ++ [.prim q] ∧
    (q.waits = true → t.sub = .wait ∧ t.fsm = s.fsm) ∧ (q.waits = false → t.fsm = .idle)

/-- A turn of the BLOCK issues one primitive or none. -/
theorem turn_trace (h : exec (phaseInstr s.fsm) s = .next t) :
    t.trace = s.trace ∨ ∃ q, IssuesOne q s t := by
  rcases phase_next h with ⟨-, rfl⟩ | ⟨hp, hs, q, hq, rfl⟩ | ⟨hp, hs, q, hq, rfl⟩ | ⟨-, -, rfl⟩ |
    ⟨-, -, -, rfl⟩
  · exact .inl rfl
  · have hbusy : s.fsm ≠ .idle := fun e => by simp [e, waitingPhases] at hp
    exact .inr ⟨q, hbusy, hs, by simp, fun _ => ⟨rfl, by simp⟩, fun hn => by simp [hq] at hn⟩
  · have hbusy : s.fsm ≠ .idle := fun e => by simp [e] at hp
    have hwaits := waits_of_endedBy hq
    obtain ⟨o, r, ph, e, -⟩ := finishPhase_eq hp ((issuePrimitive_sub s q).trans hs)
    exact .inr ⟨q, hbusy, hs, by simp [e], fun hw => by simp [hwaits] at hw, fun _ => by rw [e]⟩
  · exact .inl (poll_trace s.fsm s)
  · exact .inl rfl

/-- Settles O52: of the five cases of a step only a turn of the BLOCK and the reset touch the trace. -/
theorem traceGrowsByOneIssue : Obligations.TraceGrowsByOneIssue := by
  intro s t h
  obtain ⟨rest, hcase⟩ := step_cases h
  cases hcase with
  | block hnext hexec =>
    exact (turn_trace (s := { s with inputs := rest }) hexec).imp id
      fun ⟨q, hissue⟩ => .inr ⟨q, hnext, hissue⟩
  | command v _ hwrite => exact .inl (trace_of_commandWrite (s := { s with inputs := rest }) hwrite)
  | access f v ht => exact .inl (ht ▸ rfl)
  | store a h l n m _ _ ht => exact .inl (ht ▸ rfl)
  | reset hnext ht => exact .inr (.inl ⟨hnext, ht ▸ rfl⟩)

/-! ### Runs of steps -/

theorem SafeRun.zero (s : State) : SafeRun 0 s s := rfl

/-- A run of one step or more is a step, then a run. -/
theorem safeRun_succ_iff {k : Nat} :
    SafeRun (k + 1) s u ↔ ∃ t, step s = .next t ∧ SafeRun k t u := by
  have hrun : ∀ o, step s = o → (SafeRun (k + 1) s u ↔ ∃ t, o = .next t ∧ SafeRun k t u) := by
    rintro (t | f | r) ho <;>
      simp [SafeRun, Host.Core.run, show core.step s = _ from ho]
  exact hrun _ rfl

/-- A run, then a step. -/
theorem SafeRun.step_right {k : Nat} (hrun : SafeRun k s t) (h : step t = .next u) :
    SafeRun (k + 1) s u := by
  induction k generalizing s with
  | zero =>
    cases hrun
    exact safeRun_succ_iff.2 ⟨u, h, .zero u⟩
  | succ k ih =>
    obtain ⟨v, hsv, hrun⟩ := safeRun_succ_iff.1 hrun
    exact safeRun_succ_iff.2 ⟨v, hsv, ih hrun⟩

/-! ### A WAIT in which ENV never sets the flag (R145, R272, R296) -/

/-- The BLOCK waits with no event pending, and none of ENV's answers to come sets the flag. -/
structure MissingWait (s : State) : Prop where
  running : running s
  inputs : s.inputs = []
  fsm : s.fsm ∈ waitingPhases
  sub : s.sub = .wait
  misses : ∀ d ∈ s.env, ¬ completes s.cfg d

/-- The next step of a WAIT is a poll (R142). -/
theorem step_of_wait (hrun : running s) (hin : s.inputs = []) (hp : s.fsm ∈ waitingPhases)
    (hs : s.sub = .wait) : step s = .next (poll s.fsm s) := by
  rw [step_eq_turn hrun.1 hrun.2, turn, hin]
  exact (blockTurn_eq s).trans (exec_phaseInstr_wait hp hs)

theorem MissingWait.nextDraw_misses (h : MissingWait s) (henv : s.env ≠ []) :
    s.nextDraw.completes s.cfg = false := by
  obtain ⟨d, rest, he⟩ := List.exists_cons_of_ne_nil henv
  have hd : s.nextDraw = d := by rw [State.nextDraw, he]
  exact Bool.eq_false_iff.2 (hd ▸ h.misses d (by simp [he]))

/-- A poll that reads the flag as 0 below the limit is only counted (R145). -/
theorem poll_of_miss (p : Phase) (hd : s.nextDraw.completes s.cfg = false)
    (hl : s.cfg.pollLimit ≠ some (s.polls + 1)) :
    poll p s = { ctlRead .control (showDraw s.nextDraw s) with polls := s.polls + 1 } := by
  rcases pollWith_cases s s.nextDraw p with ⟨hc, -⟩ | ⟨-, -, e⟩ | ⟨-, hl', -⟩
  · simp [hd] at hc
  · exact e
  · exact absurd hl' hl

/-- The poll that reaches the limit enters the fail path (R145, R272). -/
theorem poll_of_timeout (p : Phase) (hd : s.nextDraw.completes s.cfg = false)
    (hl : s.cfg.pollLimit = some (s.polls + 1)) :
    poll p s = failPath s.cfg.timeoutCode .timedOut p
      { ctlRead .control (showDraw s.nextDraw s) with polls := s.polls + 1 } := by
  rcases pollWith_cases s s.nextDraw p with ⟨hc, -⟩ | ⟨-, hl', -⟩ | ⟨-, -, e⟩
  · simp [hd] at hc
  · exact absurd hl hl'
  · exact e

theorem MissingWait.step_of_miss (h : MissingWait s) (henv : s.env ≠ [])
    (hl : s.cfg.pollLimit ≠ some (s.polls + 1)) :
    step s = .next { ctlRead .control (showDraw s.nextDraw s) with polls := s.polls + 1 } := by
  rw [step_of_wait h.running h.inputs h.fsm h.sub, poll_of_miss _ (h.nextDraw_misses henv) hl]

theorem MissingWait.step_of_timeout (h : MissingWait s) (henv : s.env ≠ [])
    (hl : s.cfg.pollLimit = some (s.polls + 1)) :
    step s = .next (failPath s.cfg.timeoutCode .timedOut s.fsm
      { ctlRead .control (showDraw s.nextDraw s) with polls := s.polls + 1 }) := by
  rw [step_of_wait h.running h.inputs h.fsm h.sub, poll_of_timeout _ (h.nextDraw_misses henv) hl]

/-- From `s` to `u` the BLOCK has made `k` polls that missed: ENV's answers are used up, the polls are
counted, and only the controller's registers and the access log have changed besides. -/
def AfterMisses (k : Nat) (s u : State) : Prop :=
  ∃ ctl acc, u = { s with
    ctl := ctl, accesses := acc, env := s.env.drop k, draws := s.draws + k, polls := s.polls + k }

theorem AfterMisses.missingWait {k : Nat} (hu : AfterMisses k s u) (h : MissingWait s) :
    MissingWait u := by
  obtain ⟨ctl, acc, rfl⟩ := hu
  exact ⟨h.running, h.inputs, h.fsm, h.sub, fun d hd => h.misses d (List.mem_of_mem_drop hd)⟩

theorem AfterMisses.succ {k : Nat} (hu : AfterMisses k s u) (d : EnvDraw) :
    AfterMisses (k + 1) s { ctlRead .control (showDraw d u) with polls := u.polls + 1 } := by
  obtain ⟨ctl, acc, rfl⟩ := hu
  refine ⟨{ ctl with control := d.control, status := d.status, data := d.data },
    acc ++ [.read .control d.control], ?_⟩
  rw [← List.tail_drop]
  rfl

/-- While the polls stay below the limit, as many misses as ENV has answers keep the WAIT going. -/
theorem MissingWait.safeRun {k : Nat} (h : MissingWait s) (henv : k ≤ s.env.length)
    (hl : ∀ n, s.cfg.pollLimit = some n → s.polls + k < n) :
    ∃ u, SafeRun k s u ∧ AfterMisses k s u := by
  induction k with
  | zero => exact ⟨s, .zero s, s.ctl, s.accesses, rfl⟩
  | succ k ih =>
    obtain ⟨u, hrun, hu⟩ := ih (by omega) fun n hn => by have := hl n hn; omega
    have hwait := hu.missingWait h
    have hnext := hu.succ u.nextDraw
    obtain ⟨ctl, acc, rfl⟩ := hu
    have hlimit : s.cfg.pollLimit ≠ some (s.polls + k + 1) := fun e => by
      have := hl _ e
      omega
    exact ⟨_, hrun.step_right (hwait.step_of_miss (by simpa using henv) hlimit), hnext⟩

/-- Settles O56: the first `n - 1` polls are counted, and the n-th enters the fail path. -/
theorem boundedWaitTimesOut : Obligations.BoundedWaitTimesOut := by
  intro s n hrun hlimit hin hp hs hpolls henv hmisses
  have hwait : MissingWait s := ⟨hrun, hin, hp, hs, hmisses⟩
  have below : ∀ k, k < n → ∃ u, SafeRun k s u ∧ AfterMisses k s u := fun k hk =>
    hwait.safeRun (by omega) fun m hm => by
      rw [hlimit, Option.some.injEq] at hm
      omega
  refine ⟨fun k hk => ?_, ?_⟩
  · obtain ⟨u, hsafe, ctl, acc, rfl⟩ := below k hk
    exact ⟨_, hsafe, rfl, hs, by simp [hpolls]⟩
  · have hpos : 1 ≤ n := by
      obtain ⟨-, -, -, -, -, hone, -⟩ := s.cfg.wf_iff.1 hrun.1
      exact hone n hlimit
    obtain ⟨m, rfl⟩ := Nat.exists_eq_add_of_le' hpos
    obtain ⟨u, hsafe, hu⟩ := below m (by omega)
    have huwait := hu.missingWait hwait
    obtain ⟨ctl, acc, rfl⟩ := hu
    refine ⟨_, hsafe.step_right (huwait.step_of_timeout (by simpa using henv)
      (by simpa [hpolls] using hlimit)), ?_⟩
    simp [failPath_fsm, failPath_outcome, Pend.outcome]

end Sys2Proof.Machine

/-! PROOFS. The address phase (41_address_phase.md): a poll in the rules' terms, the two address phases
with the rows that send their bytes, and the statuses that complete a phase. -/

namespace Sys2Proof.Machine

variable {s : State}

/-! ### A poll, in the rules' terms (R145, R148 to R151, R220) -/

theorem failPath_eq_failed (code : Byte) (q : Pend) (p : Phase) (s : State) :
    failPath code q p s = failed code q p s := by
  cases q <;> rfl

/-- The completion reads CONTROL and then STATUS (R148). -/
theorem ctlRead_status_polled (d : EnvDraw) (s : State) :
    ctlRead .status (polled d s) = statusRead d s := by
  simp [ctlRead, polled, statusRead, Controller.get]

/-- The validator after TX: it reads the status and compares the masked code (R148, R175). -/
theorem validate_statusRead (p : Phase) (e : Byte) (f : State → State) (d : EnvDraw) (s : State) :
    validate p e f (ctlRead .status (polled d s)) = checked p e f d s := by
  rw [ctlRead_status_polled, validate, failPath_eq_failed]
  rfl

theorem checked_of_expected {p : Phase} {e : Byte} {d : EnvDraw} (f : State → State)
    (h : maskedAnswer s.cfg d = e) : checked p e f d s = f (statusRead d s) :=
  if_pos h

theorem pollWith_of_completes {d : EnvDraw} (p : Phase) (h : completes s.cfg d) :
    pollWith d p s = completePhase p (polled d s) :=
  if_pos h

theorem pollWith_of_not_completes {d : EnvDraw} (p : Phase) (h : ¬ completes s.cfg d) :
    pollWith d p s = missed p d s := by
  have hmissed : pollWith d p s = missedPoll p (polled d s) := if_neg h
  rw [hmissed, missedPoll, failPath_eq_failed]
  rfl

/-! ### What completes each phase (R171, R172, R190, R195, R213 to R216) -/

theorem completePhase_start (d : EnvDraw) (s : State) :
    completePhase .start (polled d s) = movedTo .addrW (polled d s) := rfl

theorem completePhase_restart (d : EnvDraw) (s : State) :
    completePhase .restart (polled d s) = movedTo .addrR (polled d s) := rfl

theorem completePhase_addrW (d : EnvDraw) (s : State) : completePhase .addrW (polled d s) =
    checked .addrW s.cfg.stAddrAckWrite (movedTo .memH) d s :=
  validate_statusRead _ _ _ d s

theorem completePhase_memH (d : EnvDraw) (s : State) : completePhase .memH (polled d s) =
    checked .memH s.cfg.stDataAckWrite (movedTo .memL) d s :=
  validate_statusRead _ _ _ d s

theorem completePhase_memL (d : EnvDraw) (s : State) : completePhase .memL (polled d s) =
    checked .memL s.cfg.stDataAckWrite afterMemL d s :=
  validate_statusRead _ _ _ d s

theorem completePhase_addrR (d : EnvDraw) (s : State) : completePhase .addrR (polled d s) =
    checked .addrR s.cfg.stAddrAckRead (movedTo .readData) d s :=
  validate_statusRead _ _ _ d s

theorem completePhase_writeData (d : EnvDraw) (s : State) : completePhase .writeData (polled d s) =
    checked .writeData s.cfg.stDataAckWrite afterSent d s :=
  validate_statusRead _ _ _ d s

/-- The byte ENV answers has been received and stored at IDX (R195). -/
def byteStored (d : EnvDraw) (s : State) : State :=
  { byteRead d s with buf := s.buf.write s.idx.toNat d.data }

/-- READ_DATA stores the byte before it checks the status (R195). -/
theorem completePhase_readData (d : EnvDraw) (s : State) : completePhase .readData (polled d s) =
    validate .readData (expectedCode .readData s) afterReceived (byteStored d s) := by
  have hstored : storeReceived (ctlRead .status (ctlRead .data (polled d s))) = byteStored d s := by
    simp [storeReceived, ctlRead, polled, byteStored, byteRead, Controller.get, State.bufIndex]
  have hexpected : (polled d s).expectedRead = expectedCode .readData s :=
    if_congr decide_eq_true_iff rfl rfl
  rw [completePhase, hstored, hexpected]

/-! ### The address phases and the rows of space BUS_ADDR (R170 to R172) -/

/-- A row that runs phase `p` with a primitive that waits keeps the rule of a waiting phase (R142,
R145). -/
theorem waitingPhaseRule_of_runPhase {i : Instr} {p : Phase} {q : State → Primitive}
    {issued : State → State} {completed : EnvDraw → State → State}
    (hrun : ∀ s, exec i s = .next (runPhase p (q s) s)) (hwaits : ∀ s, (q s).waits = true)
    (hissued : ∀ s, enterWait (issuePrimitive (q s) s) = issued s)
    (hcompleted : ∀ d s, completePhase p (polled d s) = completed d s) :
    WaitingPhaseRule i p issued completed := by
  refine fun s => ⟨fun hs => ?_, fun hs hc => ?_, fun hs hc => ?_⟩
  · rw [hrun, runPhase_issue_waits s p _ hs (hwaits s), hissued]
  · rw [hrun, runPhase_wait s p _ hs, poll, pollWith_of_completes p hc, hcompleted]
  · rw [hrun, runPhase_wait s p _ hs, poll, pollWith_of_not_completes p hc]

/-- A row that runs phase `p` with TX of the byte `b`. -/
theorem waitingPhaseRule_of_tx {i : Instr} {p : Phase} {b : State → Byte}
    {completed : EnvDraw → State → State}
    (hrun : ∀ s, exec i s = .next (runPhase p (.tx (b s)) s))
    (hcompleted : ∀ d s, completePhase p (polled d s) = completed d s) :
    WaitingPhaseRule i p (fun s => txIssued (b s) s) completed :=
  waitingPhaseRule_of_runPhase hrun (fun _ => rfl) (fun s => issued_tx (b s) s) hcompleted

/-- Settles O40: the two rows run the address phases with TX of their own byte. -/
theorem addressRowsAreAddressPhases : Obligations.AddressRowsAreAddressPhases := fun _ =>
  ⟨waitingPhaseRule_of_tx (fun _ => rfl) completePhase_addrW,
    waitingPhaseRule_of_tx (fun _ => rfl) completePhase_addrR⟩

/-- Settles O42: the two phases run with TX of SLA and of SLA + 1. (`addressPhases` is the list of
Safety.lean.) -/
theorem addressPhases_rule : Obligations.AddressPhases :=
  ⟨waitingPhaseRule_of_tx (fun _ => rfl) completePhase_addrW,
    waitingPhaseRule_of_tx (fun _ => rfl) completePhase_addrR⟩

/-! ### The validator's two ends (R175, R220) -/

/-- Every phase that reads a status compares it with its own code, and moves on within the transaction
where they agree (R175, R176, R211). -/
theorem completePhase_validates {p : Phase} (hp : p ∈ validatedPhases) (d : EnvDraw) (s : State) :
    ∃ acc m f, completePhase p (polled d s) =
        validate p (expectedCode p s) f { polled d s with accesses := acc, buf := m } ∧
      ∀ u, ∃ q j, q ∉ [Phase.idle, .failStop] ∧ f u = enterPhase q { u with idx := j } := by
  have moves : ∀ q ∉ [Phase.idle, .failStop], ∀ u : State,
      ∃ q' j, q' ∉ [Phase.idle, .failStop] ∧ enterPhase q u = enterPhase q' { u with idx := j } :=
    fun q hq u => ⟨q, u.idx, hq, rfl⟩
  simp only [validatedPhases, List.mem_cons, List.not_mem_nil, or_false] at hp
  rcases hp with rfl | rfl | rfl | rfl | rfl | rfl
  · exact ⟨_, _, enterPhase .memH, rfl, moves _ (by decide)⟩
  · exact ⟨_, _, enterPhase .memL, rfl, moves _ (by decide)⟩
  · refine ⟨_, _, afterMemL, rfl, fun u => ?_⟩
    rcases afterMemL_cases u with ⟨-, e⟩ | ⟨-, -, e⟩ | ⟨-, -, e⟩
    all_goals exact e ▸ moves _ (by decide) u
  · exact ⟨_, _, enterPhase .readData, rfl, moves _ (by decide)⟩
  · exact ⟨_, _, afterReceived, completePhase_readData d s,
      fun u => ⟨_, _, by split <;> decide, afterReceived_eq u⟩⟩
  · exact ⟨_, _, afterSent, rfl, fun u => ⟨_, _, by split <;> decide, afterSent_eq u⟩⟩

/-- Settles O49: a completed poll is the phase's validation, and its two ends are the two clauses. -/
theorem onlyTheExpectedStatusSucceeds : Obligations.OnlyTheExpectedStatusSucceeds := by
  intro s p hs hp hc
  have hwaiting : p ∈ waitingPhases :=
    (by decide : ∀ p ∈ validatedPhases, p ∈ waitingPhases) p hp
  obtain ⟨acc, m, f, hcomplete, hf⟩ := completePhase_validates hp s.nextDraw s
  refine ⟨_, exec_phaseInstr_wait hwaiting hs, ?_⟩
  rw [poll, pollWith_of_completes p hc, hcomplete]
  set u : State := { polled s.nextDraw s with accesses := acc, buf := m }
  rcases validate_cases u p (expectedCode p s) f with ⟨hm, e⟩ | ⟨hm, e⟩
  · obtain ⟨q, j, hq, hfu⟩ := hf u
    rw [e, hfu]
    exact ⟨rfl, rfl, fun _ => ⟨hq, rfl, rfl, rfl⟩, absurd hm⟩
  · rw [e, failPath_result, failPath_phase, failPath_pend, failPath_idx, failPath_fsm,
      failPath_outcome, failPath_sub, failPath_trace]
    exact ⟨rfl, rfl, fun h => absurd h hm, fun _ => ⟨rfl, rfl, rfl, rfl, rfl, rfl⟩⟩

/-! ### The rows of space STATUS (R108, R176, R179) -/

theorem answerStatus_issue (v : Byte) (h : s.sub = .issue) :
    answerStatus v s = { s with ctl := { s.ctl with status := v } } := by
  rw [answerStatus, h]

/-- ENV's answer has the completion flag set, whatever its position (R9, R145). -/
theorem answerWith_completes (hwf : s.cfg.wf = true) (v : Byte) :
    completes s.cfg (answerWith v s) := by
  obtain ⟨-, -, -, -, hfit, -⟩ := s.cfg.wf_iff.1 hwf
  have hint : s.cfg.ctlInt < 8 := hfit _ (by simp [Config.ctlPositions])
  simp [completes, answerWith, getLsbD_bit hint]

theorem answerStatus_wait (hwf : s.cfg.wf = true) (h : s.sub = .wait) (v : Byte) :
    answerStatus v s = completePhase s.fsm (polled (answerWith v s) s) := by
  rw [answerStatus, h]
  exact pollWith_of_completes s.fsm (answerWith_completes hwf v)

/-- A named status keeps its code under the mask, whatever its three low bits (R108). -/
theorem maskedAnswer_named (hwf : s.cfg.wf = true) (hnames : s.cfg.namesStatuses = true)
    {st : Byte} (hst : st ∈ s.cfg.statusCodes) (low : BitVec 3) :
    maskedAnswer s.cfg (answerWith (statusByte st low) s) = st := by
  obtain ⟨hmask, -⟩ := s.cfg.namesStatuses_iff.1 hnames
  obtain ⟨hcodes, -⟩ := s.cfg.wf_iff.1 hwf
  have hclear := hcodes st hst
  rw [hmask] at hclear
  rw [maskedAnswer, hmask]
  exact statusByte_and_mask hclear low

/-- MEM_L chooses the branch by `dir` and LEN (R215). -/
theorem afterMemL_eq (s : State) : afterMemL s = movedTo
    (if s.dir = .read then .restart else if 0 < s.len.toNat then .writeData else .stop) s := by
  rcases afterMemL_cases s with ⟨hdir, e⟩ | ⟨hdir, hlen, e⟩ | ⟨hdir, hlen, e⟩ <;> rw [e, hdir]
  · rfl
  · rw [hlen]
    rfl
  · have hpos : 0 < s.len.toNat := by bv_omega
    rw [if_neg (by decide), if_pos hpos]
    rfl

/-- Below the count IDX does not wrap, and the next byte or STOP follows (R195). -/
theorem afterReceived_of_lt (h : s.idx.toNat < max s.len.toNat 1) : afterReceived s =
    { movedTo (if s.idx.toNat + 1 < max s.len.toNat 1 then .readData else .stop) s with
      idx := s.idx + 1#8 } := by
  rw [afterReceived_eq, toNat_idx_succ (n := readCount s.len) h (readCount_le s.len)]
  rfl

/-- Below LEN IDX does not wrap, and the next byte or STOP follows (R190). -/
theorem afterSent_of_lt (h : s.idx.toNat < s.len.toNat) : afterSent s =
    { movedTo (if s.idx.toNat + 1 < s.len.toNat then .writeData else .stop) s with
      idx := s.idx + 1#8 } := by
  rw [afterSent_eq, toNat_idx_succ h (by have := s.len.isLt; omega)]
  rfl

/-- MEM_L and WRITE_DATA, answered with the status they expect, go to the successor of the table
(R211, R215, R190). -/
theorem completePhase_dataAckWrite {d : EnvDraw}
    (hp : s.fsm = .memL ∨ (s.fsm = .writeData ∧ s.idx.toNat < s.len.toNat))
    (h : maskedAnswer s.cfg d = s.cfg.stDataAckWrite) :
    (completePhase s.fsm (polled d s)).fsm = successor s ∧
      (completePhase s.fsm (polled d s)).sub = .issue := by
  rcases hp with hp | ⟨hp, hidx⟩
  · rw [successor, hp, completePhase_memL, checked_of_expected _ h, afterMemL_eq]
    refine ⟨?_, rfl⟩
    cases hdir : s.dir
    · exact if_neg (by simp [statusRead, polled, hdir])
    · exact if_pos hdir
  · rw [successor, hp, completePhase_writeData, checked_of_expected _ h,
      afterSent_of_lt (s := statusRead d s) hidx]
    exact ⟨rfl, rfl⟩

/-- READ_DATA, answered with the status it expects, stores the byte and advances (R195). -/
theorem completePhase_readData_of_expected {d : EnvDraw} (hidx : s.idx.toNat < max s.len.toNat 1)
    (h : maskedAnswer s.cfg d = expectedCode .readData s) :
    let t := completePhase .readData (polled d s)
    t.fsm = (if s.idx.toNat + 1 < max s.len.toNat 1 then .readData else .stop) ∧
      t.idx = s.idx + 1#8 ∧ t.buf.read s.idx.toNat = some d.data := by
  have hsuccess : completePhase .readData (polled d s) = afterReceived (byteStored d s) :=
    (completePhase_readData d s).trans (if_pos h)
  rw [hsuccess, afterReceived_of_lt (s := byteStored d s) hidx]
  exact ⟨rfl, rfl, Memory.read_write_same s.buf s.idx.toNat d.data⟩

/-- Settles O48: in WAIT a status row completes phase `fsm` with an answer whose masked code is the
named one, and in ISSUE it only sets STATUS. -/
theorem namedStatusCompletesItsPhase : Obligations.NamedStatusCompletesItsPhase := by
  intro s low hwf hnames ans shown
  refine ⟨fun hs => ?_, fun hs => ?_⟩
  · have answered : ∀ st, answerStatus (statusByte st low) s =
        completePhase s.fsm (polled (ans st) s) := fun _ => answerStatus_wait hwf hs _
    have named : ∀ st ∈ s.cfg.statusCodes, maskedAnswer s.cfg (ans st) = st :=
      fun st hst => maskedAnswer_named hwf hnames hst low
    simp only [Config.statusCodes, List.mem_cons, List.not_mem_nil, or_false, forall_eq_or_imp,
      forall_eq] at named
    obtain ⟨-, haddrW, haddrR, hdataW, hdataAck, hdataNack⟩ := named
    refine ⟨fun hp => ?_, fun hp => ?_, fun hp => ?_, fun hp => ?_, fun hp => ?_, fun hp => ?_,
      fun hp hmore => ?_, fun hp hlast => ?_⟩
    · rw [exec_startSent, execStartSent, answered, hp, completePhase_start]
    · rw [exec_startSent, execStartSent, answered, hp, completePhase_restart]
    · rw [exec_addrAckWrite, execAddrAckWrite, answered, hp, completePhase_addrW,
        checked_of_expected _ haddrW]
    · rw [exec_addrAckRead, execAddrAckRead, answered, hp, completePhase_addrR,
        checked_of_expected _ haddrR]
    · rw [exec_dataAckWrite, execDataAckWrite, answered, hp, completePhase_memH,
        checked_of_expected _ hdataW]
    · rw [exec_dataAckWrite, execDataAckWrite, answered]
      exact ⟨_, rfl, completePhase_dataAckWrite hp hdataW⟩
    · have hexpected : expectedCode .readData s = s.cfg.stDataAckRead := if_pos (by omega)
      obtain ⟨hfsm, hstored⟩ :=
        completePhase_readData_of_expected (by omega) (hdataAck.trans hexpected.symm)
      rw [exec_dataAckRead, execDataAckRead, answered, hp]
      exact ⟨_, rfl, by rw [hfsm, successor, hp], hstored⟩
    · have hexpected : expectedCode .readData s = s.cfg.stDataNackRead := if_neg (by omega)
      obtain ⟨hfsm, hstored⟩ :=
        completePhase_readData_of_expected (by omega) (hdataNack.trans hexpected.symm)
      rw [exec_dataNackRead, execDataNackRead, answered, hp]
      exact ⟨_, rfl, hfsm.trans (if_neg (by omega)), hstored⟩
  · have shows : ∀ st, (.next (answerStatus (statusByte st low) s) : Result) = .next (shown st) :=
      fun _ => congrArg _ (answerStatus_issue _ hs)
    exact ⟨shows _, shows _, shows _, shows _, shows _, shows _⟩

end Sys2Proof.Machine

/-! PROOFS. The data phase (42_data_phase.md): a byte sent and acknowledged, and a byte received,
stored, and then checked. -/

namespace Sys2Proof.Machine

variable {s : State}

/-! ### WRITE_DATA (R190) -/

/-- In ISSUE a byte that has been written is sent (R190). -/
theorem exec_phWriteData_written {b : Byte} (hs : s.sub = .issue)
    (hb : s.buf.read s.idx.toNat = some b) : exec .phWriteData s = .next (txIssued b s) := by
  have hread : s.buf.read s.bufIndex = some b := hb
  simp only [exec_phWriteData, execPhWriteData, hs, hread]
  rw [runPhase_issue_waits s .writeData (.tx b) hs rfl, issued_tx]

/-- In ISSUE a byte no one has written makes the model fault (R78, R190). -/
theorem exec_phWriteData_unwritten (hs : s.sub = .issue)
    (hb : s.buf.read s.idx.toNat = none) :
    exec .phWriteData s = .next (recordFault .txUnwritten s) := by
  have hread : s.buf.read s.bufIndex = none := hb
  rw [exec_phWriteData, execPhWriteData, hs, hread]

/-- Below LEN the completion of WRITE_DATA advances IDX to the next byte or to STOP (R190). -/
theorem checked_afterSent_of_lt (h : s.idx.toNat < s.len.toNat) (e : Byte) (d : EnvDraw) :
    checked .writeData e afterSent d s = checked .writeData e
      (fun u => { movedTo (if s.idx.toNat + 1 < s.len.toNat then .writeData else .stop) u with
        idx := s.idx + 1#8 }) d s := by
  have hsent := afterSent_of_lt (s := statusRead d s) h
  rw [checked, hsent]
  rfl

/-- Settles O44: the ISSUE step by what BUF[IDX] holds, the WAIT step by ENV's completion flag. -/
theorem writeDataPhase : Obligations.WriteDataPhase := by
  intro s
  have hpoll : s.sub = .wait → exec .phWriteData s = .next (poll .writeData s) :=
    exec_phaseInstr_wait (p := .writeData) (by decide)
  refine ⟨fun hs b => exec_phWriteData_written hs, fun hs hb hf => ?_, fun hs hc hidx => ?_,
    fun hs hc => ?_⟩
  · exact ⟨_, exec_phWriteData_unwritten hs hb, by simp [hf]⟩
  · rw [hpoll hs, poll, pollWith_of_completes .writeData hc, completePhase_writeData,
      checked_afterSent_of_lt hidx]
  · rw [hpoll hs, poll, pollWith_of_not_completes .writeData hc]

/-! ### READ_DATA (R195, R198) -/

/-- RX_ACK asks for one more byte, and RX_NACK ends the reception (R195). -/
def byteRequested (s : State) : State :=
  if s.idx.toNat < max s.len.toNat 1 - 1 then rxAckIssued s else rxNackIssued s

/-- The byte ENV answers is stored whatever the status; the status then says how to go on (R195). -/
def byteChecked (d : EnvDraw) (s : State) : State :=
  if maskedAnswer s.cfg d = expectedCode .readData s then afterReceived (byteStored d s)
  else failed (maskedAnswer s.cfg d) .failed .readData (byteStored d s)

/-- The validator's completion of READ_DATA, in ENV's answer (R151, R175, R195). -/
theorem completePhase_readData_eq_byteChecked (d : EnvDraw) (s : State) :
    completePhase .readData (polled d s) = byteChecked d s := by
  rw [completePhase_readData, validate, failPath_eq_failed]
  rfl

/-- READ_DATA is a phase that waits: it requests a byte, and checks the answer (R142, R195). -/
theorem readDataPhase_rule :
    WaitingPhaseRule .phReadData .readData byteRequested byteChecked := by
  refine waitingPhaseRule_of_runPhase (fun _ => rfl) (fun s => ?_) (fun s => ?_)
    completePhase_readData_eq_byteChecked
  · cases s.moreToRead <;> rfl
  · by_cases h : s.idx.toNat < max s.len.toNat 1 - 1
    · have hmore : s.moreToRead = true := decide_eq_true h
      rw [byteRequested, if_pos h, if_pos hmore, issued_rxAck]
    · have hlast : ¬ s.moreToRead = true := fun hmore => h (of_decide_eq_true hmore)
      rw [byteRequested, if_neg h, if_neg hlast, issued_rxNack]

/-- The byte is stored at IDX and nowhere else (R195). -/
theorem byteStored_buf_read (d : EnvDraw) (s : State) :
    (byteStored d s).buf.read s.idx.toNat = some d.data ∧
    (byteStored d s).written s.idx.toNat = true ∧
    ∀ a, a ≠ s.idx.toNat → (byteStored d s).buf.read a = s.buf.read a := by
  have hread : (byteStored d s).buf.read s.idx.toNat = some d.data :=
    Memory.read_write_same s.buf s.idx.toNat d.data
  exact ⟨hread, by rw [State.written, hread]; rfl,
    fun a ha => Memory.read_write_other s.buf s.idx.toNat a d.data ha⟩

/-- Settles O45: READ_DATA keeps the rule of a waiting phase, and its completion is checked on
the state in which the byte is already stored. -/
theorem readDataPhase : Obligations.ReadDataPhase := by
  intro s hidx
  obtain ⟨hissue, hcomplete, hmiss⟩ := readDataPhase_rule s
  refine ⟨fun hs hmore => ?_, fun hs hlast => ?_, fun hs hc => ?_, hmiss⟩
  · rw [hissue hs, byteRequested, if_pos hmore]
  · rw [hissue hs, byteRequested, if_neg (by omega)]
  · refine ⟨fun hm => ?_, fun hm => ?_, byteStored_buf_read s.nextDraw s⟩
    · rw [hcomplete hs hc, byteChecked, if_pos hm,
        afterReceived_of_lt (s := byteStored s.nextDraw s) hidx]
      rfl
    · rw [hcomplete hs hc, byteChecked, if_neg hm]
      rfl

end Sys2Proof.Machine

/-! PROOFS. The transaction (43_transaction.md): the phases before and after the data, and the
successor table. -/

namespace Sys2Proof.Machine

variable {s t : State} {p : Phase}

/-! ### The phases (R213 to R217, R221) -/

/-- Settles O41: the two phases run with START, and their completion reads no register. -/
theorem startPhases : Obligations.StartPhases :=
  ⟨waitingPhaseRule_of_runPhase (fun _ => rfl) (fun _ => rfl) issued_start completePhase_start,
    waitingPhaseRule_of_runPhase (fun _ => rfl) (fun _ => rfl) issued_start completePhase_restart⟩

/-- The completion of MEM_L, with its three branches in the rule's terms (R215). -/
theorem completePhase_memL_eq (d : EnvDraw) (s : State) : completePhase .memL (polled d s) =
    checked .memL s.cfg.stDataAckWrite (movedTo (if s.dir = .read then .restart
      else if 0 < s.len.toNat then .writeData else .stop)) d s := by
  rw [completePhase_memL, checked, afterMemL_eq]
  rfl

/-- Settles O43: the two phases run with TX of MAH and of MAL. -/
theorem memoryAddressPhases : Obligations.MemoryAddressPhases :=
  ⟨waitingPhaseRule_of_tx (fun _ => rfl) completePhase_memH,
    waitingPhaseRule_of_tx (fun _ => rfl) completePhase_memL_eq⟩

theorem exec_phStop_issue (hs : s.sub = .issue) : exec .phStop s = .next
    { stopIssued s with outcome := .complete, phase := .idle, fsm := .idle } := by
  rw [exec_phStop, execPhStop, runPhase_issue_ends s .stop .stop hs rfl, issued_stop,
    finishPhase_stop (s := stopIssued s) hs]

theorem exec_phFailStop_issue (hs : s.sub = .issue) : exec .phFailStop s = .next
    { stopIssued s with outcome := s.pend.outcome, fsm := .idle } := by
  rw [exec_phFailStop, execPhFailStop, runPhase_issue_ends s .failStop .stop hs rfl, issued_stop,
    finishPhase_failStop (s := stopIssued s) hs]
  rfl

/-- Settles O47: both phases issue STOP and run their completion action in the same step. -/
theorem stopEndsTheTransaction : Obligations.StopEndsTheTransaction := fun _ hs =>
  ⟨exec_phStop_issue hs, exec_phFailStop_issue hs⟩

/-! ### The successor table (R211) -/

/-- A step in which the BLOCK moves next runs the row of `fsm`. -/
theorem exec_of_blockNext (hnext : blockNext s) (h : step s = .next t) :
    exec (phaseInstr s.fsm) (popInput s) = .next t := by
  obtain ⟨-, -, hturn⟩ := step_next h
  rcases hnext with hin | ⟨rest, hin⟩
  · have hpop : popInput s = s := by rw [popInput, hin, List.tail_nil, ← hin]
    rw [turn, hin] at hturn
    rw [hpop]
    exact (blockTurn_eq s).symm.trans hturn
  · rw [turn, hin] at hturn
    exact (blockTurn_eq (popInput s)).symm.trans hturn

/-- From `s` to `t` the fail path has been entered, with PHASE the phase of `s` (R220). -/
def EntersFailPath (s t : State) : Prop :=
  t.phase = s.fsm ∧ t.fsm = if s.cfg.stopOnFail then .failStop else .idle

theorem entersFailPath_failPath (code : Byte) (q : Pend) (s : State) :
    EntersFailPath s (failPath code q s.fsm s) :=
  ⟨by simp, failPath_fsm s code q s.fsm⟩

/-- A completion goes to the successor of the table or enters the fail path (R211, R220). -/
theorem State.Inv.completePhase_successor (h : s.Inv) (hp : s.fsm ∈ waitingPhases) :
    (Machine.completePhase s.fsm s).fsm = successor s ∨
      EntersFailPath s (Machine.completePhase s.fsm s) := by
  obtain ⟨reads, m, -, -, -, ⟨-, -, -, e⟩ | ⟨q, j, e, hq⟩⟩ := completePhase_cases hp s <;> rw [e]
  · exact .inr (entersFailPath_failPath _ _ _)
  suffices hsucc : q = successor s from .inl hsucc
  rcases hq with ⟨hs, rfl, -⟩ | ⟨hs, rfl, -⟩ | ⟨hs, rfl, -⟩ |
    ⟨hs, -, ⟨hdir, rfl⟩ | ⟨hdir, hlen, rfl⟩ | ⟨hdir, hlen, rfl⟩⟩ | ⟨hs, rfl, -⟩ |
    ⟨hs, rfl, -⟩ | ⟨hs, -, rfl⟩ | ⟨hs, -, rfl⟩ <;> rw [successor, hs]
  · rw [hdir]
  · rw [hdir, hlen]
    rfl
  · have hpos : 0 < s.len.toNat := by bv_omega
    rw [hdir]
    exact (if_pos hpos).symm
  · rw [toNat_idx_succ (h.readIdx hs) (readCount_le s.len)]
    rfl
  · rw [toNat_idx_succ (h.writeIdx hs).2 (by have := s.len.isLt; omega)]

/-- A poll stays in its phase, goes to the successor, or enters the fail path (R145, R211). -/
theorem State.Inv.poll_successor (h : s.Inv) (hp : s.fsm ∈ waitingPhases) :
    (Machine.poll s.fsm s).fsm = s.fsm ∨ (Machine.poll s.fsm s).fsm = successor s ∨
      EntersFailPath s (Machine.poll s.fsm s) := by
  have hshown : (ctlRead .control (showDraw s.nextDraw s)).Inv := h.congr rfl
  rcases pollWith_cases s s.nextDraw s.fsm with ⟨-, e⟩ | ⟨-, -, e⟩ | ⟨-, -, e⟩ <;>
    rw [Machine.poll, e]
  · exact .inr (hshown.completePhase_successor hp)
  · exact .inl rfl
  · exact .inr (.inr (entersFailPath_failPath _ _
      { ctlRead .control (showDraw s.nextDraw s) with polls := s.polls + 1 }))

/-- A turn of the BLOCK keeps its phase, goes to the successor of the table, or enters the fail path
from a WAIT (R211, R220). -/
theorem State.Inv.turn_successor (h : s.Inv) (hexec : exec (phaseInstr s.fsm) s = .next t) :
    t.fsm = s.fsm ∨ t.fsm = successor s ∨
      (s.fsm ∈ waitingPhases ∧ s.sub = .wait ∧ EntersFailPath s t) := by
  rcases phase_next hexec with ⟨-, rfl⟩ | ⟨-, -, q, -, rfl⟩ | ⟨hp, hs, q, -, rfl⟩ | ⟨-, hs, rfl⟩ |
    ⟨-, -, -, rfl⟩
  · exact .inl rfl
  · exact .inl (by simp)
  · obtain ⟨o, r, ph, e, -⟩ := finishPhase_eq hp ((issuePrimitive_sub s q).trans hs)
    refine .inr (.inl ?_)
    rw [e]
    simp only [List.mem_cons, List.not_mem_nil, or_false] at hp
    rcases hp with hp | hp | hp | hp <;> simp only [successor, hp]
  · have hp := h.waitOnly hs
    exact (h.poll_successor hp).imp_right (.imp_right fun hfail => ⟨hp, hs, hfail⟩)
  · exact .inl rfl

/-- No successor but IDLE has a lower code (R211). -/
theorem code_le_successor (h : successor s ≠ .idle) :
    s.fsm.code.toNat ≤ (successor s).code.toNat := by
  cases hs : s.fsm <;> simp only [successor, hs] at h ⊢
  case config | stop | failStop | busStop => exact absurd rfl h
  case memL =>
    split
    · decide
    · split <;> decide
  case readData | writeData => split <;> decide
  all_goals decide

/-- FAIL_STOP comes after every phase that waits (R120). -/
theorem code_le_failStop (hp : p ∈ waitingPhases) :
    p.code.toNat ≤ Phase.failStop.code.toNat :=
  (by decide : ∀ p ∈ waitingPhases, p.code.toNat ≤ Phase.failStop.code.toNat) p hp

/-- Settles O51: the order of the codes follows from where the turn goes. -/
theorem successorTable : Obligations.SuccessorTable := by
  intro s t hinv hnext h
  have hpopped : (popInput s).Inv := hinv.congr rfl
  have hto := hpopped.turn_successor (exec_of_blockNext hnext h)
  refine ⟨hto, fun hbusy => ?_⟩
  rcases hto with e | e | ⟨hp, -, -, e⟩
  · exact e ▸ le_rfl
  · exact e ▸ code_le_successor (s := s) (e ▸ hbusy)
  · cases hstop : s.cfg.stopOnFail
    · exact absurd (by simpa [popInput, hstop] using e) hbusy
    · have hfail : t.fsm = .failStop := by simpa [popInput, hstop] using e
      exact hfail ▸ code_le_failStop (p := s.fsm) hp

end Sys2Proof.Machine

/-! PROOFS. Whole transactions (43_transaction.md section 3): the transfer that an unexpected status
ends, and the two transfers without a failure (R210, R225): on a bus that answers every poll as
expected each waiting phase takes two steps, and STOP the last one. -/

namespace Sys2Proof.Machine

variable {s t u v : State} {p p' : Phase} {d : EnvDraw} {rest : List EnvDraw}

/-! ### The BLOCK's turns with no event pending -/

/-- The BLOCK is about to take the ISSUE step of phase `p`, and no other event is pending. -/
structure AtIssue (p : Phase) (s : State) : Prop where
  running : running s
  inputs : s.inputs = []
  fsm : s.fsm = p
  sub : s.sub = .issue

theorem AtIssue.step_eq (h : AtIssue p s) : step s = exec (phaseInstr p) s := by
  rw [step_eq_turn h.running.1 h.running.2, turn, h.inputs, ← h.fsm]
  exact blockTurn_eq s

/-- A run, then a run. -/
theorem SafeRun.append {j k : Nat} (hst : SafeRun j s t) (htu : SafeRun k t u) :
    SafeRun (j + k) s u := by
  induction j generalizing s with
  | zero =>
    cases hst
    rwa [Nat.zero_add]
  | succ j ih =>
    obtain ⟨v, hsv, hvt⟩ := safeRun_succ_iff.1 hst
    rw [Nat.succ_add]
    exact safeRun_succ_iff.2 ⟨v, hsv, ih hvt⟩

/-! ### An unexpected status (R220 to R222) -/

/-- The buffer after the completion of phase `p`: READ_DATA has stored its byte, whatever the status
(R195). -/
def bufAfter (p : Phase) (d : EnvDraw) (s : State) : Memory :=
  match p with
  | .readData => s.buf.write s.idx.toNat d.data
  | _ => s.buf

theorem bufAfter_of_ne (hp : p ≠ .readData) : bufAfter p d s = s.buf := by
  cases p
  case readData => exact absurd rfl hp
  all_goals rfl

/-- Any other masked status than the expected one enters the fail path (R175, R220). -/
theorem completePhase_of_mismatch (hp : p ∈ validatedPhases)
    (hm : maskedAnswer s.cfg d ≠ expectedCode p s) : ∃ acc, completePhase p (polled d s) =
      failed (maskedAnswer s.cfg d) .failed p
        { polled d s with accesses := acc, buf := bufAfter p d s } := by
  simp only [validatedPhases, List.mem_cons, List.not_mem_nil, or_false] at hp
  rcases hp with rfl | rfl | rfl | rfl | rfl | rfl
  · exact ⟨_, (completePhase_addrW d s).trans (if_neg hm)⟩
  · exact ⟨_, (completePhase_memH d s).trans (if_neg hm)⟩
  · exact ⟨_, (completePhase_memL d s).trans (if_neg hm)⟩
  · exact ⟨_, (completePhase_addrR d s).trans (if_neg hm)⟩
  · exact ⟨_, (completePhase_readData_eq_byteChecked d s).trans (if_neg hm)⟩
  · exact ⟨_, (completePhase_writeData d s).trans (if_neg hm)⟩

/-- The fail path returns to IDLE at once, or after the step that issues its STOP (R220, R221). -/
theorem safeRun_failed (hrun : running s) (hin : s.inputs = []) (code : Byte) (q : Pend)
    (p : Phase) : ∃ ctl acc, SafeRun (if s.cfg.stopOnFail then 1 else 0) (failed code q p s)
      { s with
        result := code, phase := p, pend := q, sub := .issue, fsm := .idle, outcome := q.outcome
        ctl := ctl, accesses := acc
        trace := s.trace ++ if s.cfg.stopOnFail then [.prim .stop] else [] } := by
  rw [← failPath_eq_failed]
  rcases failPath_cases s code q p with ⟨hstop, e⟩ | ⟨hstop, e⟩ <;> rw [e, hstop]
  · have hready : AtIssue .failStop { s with
        result := code, phase := p, pend := q, sub := .issue, fsm := .failStop } :=
      ⟨hrun, hin, rfl, rfl⟩
    exact ⟨_, _, safeRun_succ_iff.2
      ⟨_, hready.step_eq.trans (exec_phFailStop_issue hready.sub), .zero _⟩⟩
  · refine ⟨s.ctl, s.accesses, ?_⟩
    simpa using SafeRun.zero _

/-- Settles O54: the completing poll enters the fail path, and the fail path returns to IDLE. -/
theorem mismatchEndsTheTransaction : Obligations.MismatchEndsTheTransaction := by
  intro s hrun hin hp hs hc hm
  have hwaiting : s.fsm ∈ waitingPhases :=
    (by decide : ∀ p ∈ validatedPhases, p ∈ waitingPhases) _ hp
  obtain ⟨acc, hfailed⟩ := completePhase_of_mismatch hp hm
  have hpoll := step_of_wait hrun hin hwaiting hs
  rw [poll, pollWith_of_completes s.fsm hc, hfailed] at hpoll
  obtain ⟨ctl', acc', hreturn⟩ := safeRun_failed
    (s := { polled s.nextDraw s with accesses := acc, buf := bufAfter s.fsm s.nextDraw s })
    hrun hin (maskedAnswer s.cfg s.nextDraw) .failed s.fsm
  have hsafe : SafeRun ((if s.cfg.stopOnFail then 1 else 0) + 1) s _ :=
    safeRun_succ_iff.2 ⟨_, hpoll, hreturn⟩
  have hsteps : (if s.cfg.stopOnFail then 1 else 0) + 1 = if s.cfg.stopOnFail then 2 else 1 := by
    split <;> rfl
  rw [hsteps] at hsafe
  refine ⟨_, hsafe, rfl, rfl, rfl, rfl, rfl, rfl, rfl, fun hne a => ?_, fun hread => ?_⟩
  · exact congrArg (Memory.read · a) (bufAfter_of_ne hne)
  · have hbuf : bufAfter s.fsm s.nextDraw s = s.buf.write s.idx.toNat s.nextDraw.data := by
      rw [hread, bufAfter]
    simp only [hbuf]
    exact ⟨Memory.read_write_same _ _ _, fun a ha => Memory.read_write_other _ _ _ _ ha⟩

/-! ### Runs through the phases that wait (R142, R145, R211) -/

/-- What the phases that wait leave alone while they succeed: the parameters, the descriptor, `dir`,
RESULT and CMD_REJ (R178). -/
structure SameTransfer (s u : State) : Prop where
  cfg : u.cfg = s.cfg
  sla : u.sla = s.sla
  mah : u.mah = s.mah
  mal : u.mal = s.mal
  len : u.len = s.len
  dir : u.dir = s.dir
  result : u.result = s.result
  cmdRej : u.cmdRej = s.cmdRej

theorem SameTransfer.trans (h : SameTransfer s u) (h' : SameTransfer u v) : SameTransfer s v :=
  ⟨h'.cfg.trans h.cfg, h'.sla.trans h.sla, h'.mah.trans h.mah, h'.mal.trans h.mal,
    h'.len.trans h.len, h'.dir.trans h.dir, h'.result.trans h.result, h'.cmdRej.trans h.cmdRej⟩

/-- From `s` the BLOCK passes phases that wait, which issue the primitives `ps`, to the ISSUE step
of phase `p`: two steps and one of ENV's answers for each. -/
structure Reaches (ps : List Primitive) (p : Phase) (s u : State) : Prop where
  run : SafeRun (2 * ps.length) s u
  atIssue : AtIssue p u
  same : SameTransfer s u
  env : u.env = s.env.drop ps.length
  trace : u.trace = s.trace ++ ps.map .prim

theorem AtIssue.reaches_nil (h : AtIssue p s) : Reaches [] p s s :=
  ⟨.zero s, h, ⟨rfl, rfl, rfl, rfl, rfl, rfl, rfl, rfl⟩, rfl, by simp⟩

theorem Reaches.append {ps qs : List Primitive} (h : Reaches ps p s u) (h' : Reaches qs p' u v) :
    Reaches (ps ++ qs) p' s v where
  run := by
    rw [List.length_append, Nat.mul_add]
    exact h.run.append h'.run
  atIssue := h'.atIssue
  same := h.same.trans h'.same
  env := by rw [h'.env, h.env, List.drop_drop, List.length_append]
  trace := by rw [h'.trace, h.trace, List.map_append, List.append_assoc]

/-- A phase that waits: the ISSUE step of its primitive, and the poll that ENV's next answer
completes with the phase's success. -/
theorem AtIssue.reaches {q : Primitive} {i : Byte} {m : Memory} (h : AtIssue p s)
    (hp : p ∈ waitingPhases) (hexec : exec (phaseInstr p) s = .next (runPhase p q s))
    (hq : q.waits = true) (henv : s.env = d :: rest) (hc : completes s.cfg d)
    (hsuccess : ∃ acc, completePhase p (polled d (enterWait (issuePrimitive q s))) =
      movedTo p' { polled d (enterWait (issuePrimitive q s)) with
        accesses := acc, idx := i, buf := m }) :
    ∃ u, Reaches [q] p' s u ∧ u.idx = i ∧ u.buf = m := by
  obtain ⟨acc, hsuccess⟩ := hsuccess
  rw [runPhase_issue_waits s p q h.sub hq] at hexec
  set w := enterWait (issuePrimitive q s) with hw
  have hrunning : Machine.running w :=
    ⟨by simpa [hw] using h.running.1, by simpa [hw] using h.running.2⟩
  have hinputs : w.inputs = [] := by simpa [hw] using h.inputs
  have hfsm : w.fsm = p := by simpa [hw] using h.fsm
  have hdraw : w.nextDraw = d := by simp [State.nextDraw, hw, henv]
  have hpoll := step_of_wait hrunning hinputs (hfsm ▸ hp) rfl
  rw [poll, hdraw, hfsm, pollWith_of_completes p (by simpa [hw] using hc), hsuccess] at hpoll
  have hrun : SafeRun 2 s _ :=
    safeRun_succ_iff.2 ⟨w, h.step_eq.trans hexec, safeRun_succ_iff.2 ⟨_, hpoll, .zero _⟩⟩
  refine ⟨_, ⟨hrun, ⟨?_, ?_, rfl, rfl⟩, ?_, ?_, ?_⟩, rfl, rfl⟩
  · simpa [Machine.running, movedTo, polled] using hrunning
  · simpa [movedTo, polled] using hinputs
  · constructor <;> simp [movedTo, polled, hw]
  · simp [movedTo, polled, hw]
  · simp [movedTo, polled, hw]

/-- START and RESTART read no status (R213, R216). -/
theorem AtIssue.reaches_start (h : AtIssue p s) (hp : p ∈ waitingPhases)
    (hexec : exec (phaseInstr p) s = .next (runPhase p .start s))
    (hcomplete : ∀ w, completePhase p (polled d w) = movedTo p' (polled d w))
    (henv : s.env = d :: rest) (hc : completes s.cfg d) :
    ∃ u, Reaches [.start] p' s u ∧ u.idx = s.idx ∧ u.buf = s.buf :=
  h.reaches hp hexec rfl henv hc ⟨_, hcomplete _⟩

/-- A byte sent and acknowledged with the status `e` its phase expects (R148, R175). -/
theorem AtIssue.reaches_tx {b i : Byte} {e : Config → Byte} {f : State → State} (h : AtIssue p s)
    (hp : p ∈ waitingPhases) (hexec : exec (phaseInstr p) s = .next (runPhase p (.tx b) s))
    (hcheck : ∀ w, completePhase p (polled d w) = checked p (e w.cfg) f d w)
    (hnext : ∀ w, w.len = s.len → w.dir = s.dir → w.idx = s.idx →
      f w = movedTo p' { w with idx := i })
    (henv : s.env = d :: rest) (hd : answers s.cfg (e s.cfg) d) :
    ∃ u, Reaches [.tx b] p' s u ∧ u.idx = i ∧ u.buf = s.buf := by
  refine h.reaches hp hexec rfl henv hd.1 ?_
  set w := enterWait (issuePrimitive (.tx b) s) with hw
  have hm : maskedAnswer w.cfg d = e w.cfg := by simpa [hw] using hd.2
  obtain ⟨hlen, hdir, hidx⟩ : (statusRead d w).len = s.len ∧ (statusRead d w).dir = s.dir ∧
      (statusRead d w).idx = s.idx := by simp [statusRead, polled, hw]
  rw [hcheck, checked_of_expected f hm, hnext _ hlen hdir hidx]
  exact ⟨(statusRead d w).accesses, by simp [statusRead, polled, hw]⟩

/-- A byte of an address, after which IDX stays (R171, R172, R214). -/
theorem AtIssue.reaches_addressByte {b : Byte} {e : Config → Byte} (h : AtIssue p s)
    (hp : p ∈ waitingPhases) (hexec : exec (phaseInstr p) s = .next (runPhase p (.tx b) s))
    (hcheck : ∀ w, completePhase p (polled d w) = checked p (e w.cfg) (movedTo p') d w)
    (henv : s.env = d :: rest) (hd : answers s.cfg (e s.cfg) d) :
    ∃ u, Reaches [.tx b] p' s u ∧ u.idx = s.idx ∧ u.buf = s.buf :=
  h.reaches_tx hp hexec hcheck (fun _ _ _ hidx => by rw [← hidx]) henv hd

/-- The address phases of a transfer (R210): START, the write variant of the address byte, and the
two bytes of the memory address, on a bus that answers as expected. -/
theorem AtIssue.reaches_addressed {d0 d1 d2 d3 : EnvDraw} (h : AtIssue .start s)
    (henv : s.env = d0 :: d1 :: d2 :: d3 :: rest) (h0 : completes s.cfg d0)
    (h1 : answers s.cfg s.cfg.stAddrAckWrite d1) (h2 : answers s.cfg s.cfg.stDataAckWrite d2)
    (h3 : answers s.cfg s.cfg.stDataAckWrite d3) :
    ∃ u, Reaches [.start, .tx s.sla, .tx s.mah, .tx s.mal]
        (if s.dir = .read then .restart else if 0 < s.len.toNat then .writeData else .stop) s u ∧
      u.idx = s.idx ∧ u.buf = s.buf := by
  obtain ⟨u1, r1, hi1, hb1⟩ := h.reaches_start (by decide) rfl (completePhase_start d0) henv h0
  rw [← r1.same.cfg] at h1
  obtain ⟨u2, r2, hi2, hb2⟩ := r1.atIssue.reaches_addressByte (b := u1.sla)
    (e := (·.stAddrAckWrite)) (by decide) rfl (completePhase_addrW d1) (by rw [r1.env, henv]; rfl) h1
  have s2 := r1.append r2
  rw [← s2.same.cfg] at h2
  obtain ⟨u3, r3, hi3, hb3⟩ := r2.atIssue.reaches_addressByte (b := u2.mah)
    (e := (·.stDataAckWrite)) (by decide) rfl (completePhase_memH d2) (by rw [s2.env, henv]; rfl) h2
  have s3 := s2.append r3
  rw [← s3.same.cfg] at h3
  obtain ⟨u4, r4, hi4, hb4⟩ := r3.atIssue.reaches_tx (b := u3.mal) (i := u3.idx)
    (e := (·.stDataAckWrite))
    (p' := if s.dir = .read then .restart else if 0 < s.len.toNat then .writeData else .stop)
    (by decide) rfl (completePhase_memL d3)
    (fun w hl hd hi => by rw [← s3.same.len, ← s3.same.dir, ← hl, ← hd, ← hi, afterMemL_eq])
    (by rw [s3.env, henv]; rfl) h3
  refine ⟨u4, ?_, by rw [hi4, hi3, hi2, hi1], by rw [hb4, hb3, hb2, hb1]⟩
  have s4 := s3.append r4
  rwa [s3.same.mal, s2.same.mah, r1.same.sla] at s4

/-! ### The data of a write (R190) -/

/-- The bytes a write has left are sent in order, from WRITE_DATA, or from STOP when none is left
(R190). -/
theorem AtIssue.reaches_written {bytes : List Byte} {ds : List EnvDraw}
    (h : AtIssue (if s.idx.toNat < s.len.toNat then .writeData else .stop) s)
    (hlen : s.idx.toNat + bytes.length = s.len.toNat)
    (hbuf : ∀ i, i < bytes.length → s.buf.read (s.idx.toNat + i) = bytes[i]?)
    (hds : ds.length = bytes.length) (henv : s.env = ds ++ rest)
    (hans : ∀ d ∈ ds, answers s.cfg s.cfg.stDataAckWrite d) :
    ∃ u, Reaches (bytes.map .tx) .stop s u ∧ u.idx = s.len ∧ u.buf = s.buf := by
  induction bytes generalizing s ds with
  | nil =>
    have hidx : s.idx.toNat = s.len.toNat := hlen
    rw [if_neg (by omega)] at h
    exact ⟨s, h.reaches_nil, BitVec.eq_of_toNat_eq hidx, rfl⟩
  | cons b bytes ih =>
    obtain ⟨d, ds, rfl⟩ := List.exists_cons_of_length_eq_add_one hds
    rw [List.length_cons] at hlen
    have hlt : s.idx.toNat < s.len.toNat := by omega
    have hsucc : (s.idx + 1#8).toNat = s.idx.toNat + 1 :=
      toNat_idx_succ hlt (by have := s.len.isLt; omega)
    rw [if_pos hlt] at h
    have hb : s.buf.read s.idx.toNat = some b := by simpa using hbuf 0 (by simp)
    have hexec : exec .phWriteData s = .next (runPhase .writeData (.tx b) s) := by
      rw [exec_phWriteData_written h.sub hb, runPhase_issue_waits s .writeData _ h.sub rfl,
        issued_tx]
    obtain ⟨u, hu, hidx, hkept⟩ := h.reaches_tx (e := (·.stDataAckWrite)) (by decide) hexec
      (completePhase_writeData d)
      (fun w hl _ hi => by rw [afterSent_eq, hl, hi]; rfl) henv (hans d (by simp))
    have hatIssue := hu.atIssue
    rw [← hidx, ← hu.same.len] at hatIssue
    obtain ⟨v, hv, hvidx, hvkept⟩ := ih (ds := ds) hatIssue
      (by rw [hidx, hu.same.len, hsucc, ← hlen]; omega)
      (fun i hi => by
        rw [hidx, hkept, hsucc, Nat.add_assoc, Nat.add_comm 1]
        exact hbuf (i + 1) (by simpa using hi))
      (by simpa using hds) (by rw [hu.env, henv]; rfl)
      (fun d hd => by
        rw [hu.same.cfg]
        exact hans d (by simp [hd]))
    exact ⟨v, hu.append hv, hvidx.trans hu.same.len, hvkept.trans hkept⟩

/-! ### The data of a read (R195, R196) -/

/-- The primitives that receive `n` bytes: RX_ACK for every byte but the last (R196). -/
def receptions : Nat → List Primitive
  | 0 => []
  | n + 1 => (if n = 0 then .rxNack else .rxAck) :: receptions n

theorem receptions_succ (n : Nat) : receptions (n + 1) = List.replicate n .rxAck ++ [.rxNack] := by
  induction n with
  | zero => rfl
  | succ n ih =>
    rw [receptions, ih]
    rfl

@[simp] theorem receptions_length (n : Nat) : (receptions n).length = n := by
  induction n with
  | zero => rfl
  | succ n ih => rw [receptions, List.length_cons, ih]

/-- The bytes stored one after the other from index `i` on. -/
def Memory.writeFrom (m : Memory) (i : Nat) : List Byte → Memory
  | [] => m
  | b :: bytes => (m.write i b).writeFrom (i + 1) bytes

theorem Memory.read_writeFrom (m : Memory) (i a : Nat) (bytes : List Byte) :
    (m.writeFrom i bytes).read a =
      if i ≤ a ∧ a < i + bytes.length then bytes[a - i]? else m.read a := by
  induction bytes generalizing m i with
  | nil => exact (if_neg (by simp)).symm
  | cons b bytes ih =>
    rw [Memory.writeFrom, ih, List.length_cons]
    by_cases ha : a = i
    · subst ha
      rw [if_neg (by omega), if_pos (by omega), Memory.read_write_same, Nat.sub_self]
      rfl
    · rw [Memory.read_write_other m i a b ha]
      by_cases hin : i ≤ a ∧ a < i + (bytes.length + 1)
      · rw [if_pos (by omega), if_pos hin, show a - i = (a - (i + 1)) + 1 by omega,
          List.getElem?_cons_succ]
      · rw [if_neg (by omega), if_neg hin]

theorem moreToRead_iff (s : State) :
    s.moreToRead = true ↔ s.idx.toNat < max s.len.toNat 1 - 1 :=
  decide_eq_true_iff

/-- A byte received with the status its position expects is stored at IDX (R195). -/
theorem AtIssue.reaches_byte (h : AtIssue .readData s)
    (hidx : s.idx.toNat < max s.len.toNat 1) (henv : s.env = d :: rest)
    (hd : answers s.cfg (expectedCode .readData s) d) :
    ∃ u, Reaches [if s.idx.toNat + 1 = max s.len.toNat 1 then .rxNack else .rxAck]
        (if s.idx.toNat + 1 < max s.len.toNat 1 then .readData else .stop) s u ∧
      u.idx = s.idx + 1#8 ∧ u.buf = s.buf.write s.idx.toNat d.data := by
  have hprim : (if s.moreToRead then Primitive.rxAck else .rxNack) =
      if s.idx.toNat + 1 = max s.len.toNat 1 then .rxNack else .rxAck :=
    (if_congr ((moreToRead_iff s).trans (by omega)) rfl rfl).trans (ite_not _ _ _)
  have hexec : exec .phReadData s = .next (runPhase .readData
      (if s.moreToRead then .rxAck else .rxNack) s) := rfl
  rw [hprim] at hexec
  refine h.reaches (by decide) hexec (by split <;> rfl) henv hd.1 ?_
  generalize (if s.idx.toNat + 1 = max s.len.toNat 1 then Primitive.rxNack else .rxAck) = q
  set w := enterWait (issuePrimitive q s) with hw
  have hm : maskedAnswer w.cfg d = expectedCode .readData w := by
    simpa [expectedCode, hw] using hd.2
  have hstored : (byteStored d w).idx = s.idx ∧ (byteStored d w).len = s.len := by
    simp [byteStored, byteRead, polled, hw]
  rw [completePhase_readData_eq_byteChecked, byteChecked, if_pos hm,
    afterReceived_of_lt (by rwa [hstored.1, hstored.2]), hstored.1, hstored.2]
  exact ⟨(byteStored d w).accesses, by simp [byteStored, byteRead, polled, movedTo, hw]⟩

/-- The bytes a read has left are received and stored in order, from READ_DATA, or from STOP when
none is left (R195). -/
theorem AtIssue.reaches_received {ds : List EnvDraw}
    (h : AtIssue (if s.idx.toNat < max s.len.toNat 1 then .readData else .stop) s)
    (hlen : s.idx.toNat + ds.length = max s.len.toNat 1) (henv : s.env = ds ++ rest)
    (hans : ∀ i d, ds[i]? = some d → answers s.cfg
      (if s.idx.toNat + i + 1 < max s.len.toNat 1 then s.cfg.stDataAckRead
        else s.cfg.stDataNackRead) d) :
    ∃ u, Reaches (receptions ds.length) .stop s u ∧ u.idx.toNat = max s.len.toNat 1 ∧
      u.buf = s.buf.writeFrom s.idx.toNat (ds.map EnvDraw.data) := by
  induction ds generalizing s with
  | nil =>
    have hidx : s.idx.toNat = max s.len.toNat 1 := hlen
    rw [if_neg (by omega)] at h
    exact ⟨s, h.reaches_nil, hidx, rfl⟩
  | cons d ds ih =>
    rw [List.length_cons] at hlen
    have hlt : s.idx.toNat < max s.len.toNat 1 := by omega
    have hsucc : (s.idx + 1#8).toNat = s.idx.toNat + 1 :=
      toNat_idx_succ (n := readCount s.len) hlt (readCount_le s.len)
    rw [if_pos hlt] at h
    have hd : answers s.cfg (expectedCode .readData s) d := by
      have hcond : s.idx.toNat < max s.len.toNat 1 - 1 ↔ s.idx.toNat + 0 + 1 < max s.len.toNat 1 :=
        by omega
      rw [expectedCode, if_congr hcond rfl rfl]
      exact hans 0 d rfl
    obtain ⟨u, hu, hidx, hbuf⟩ := h.reaches_byte hlt henv hd
    have hatIssue := hu.atIssue
    rw [← hsucc, ← hidx, ← hu.same.len] at hatIssue
    obtain ⟨v, hv, hvidx, hvbuf⟩ := ih hatIssue
      (by rw [hidx, hu.same.len, hsucc, ← hlen]; omega) (by rw [hu.env, henv]; rfl)
      (fun i d hd => by
        rw [hu.same.cfg, hu.same.len, hidx, hsucc, Nat.add_assoc _ 1 i, Nat.add_comm 1 i]
        exact hans (i + 1) d hd)
    refine ⟨v, ?_, hvidx.trans (by rw [hu.same.len]), ?_⟩
    · have hlast : s.idx.toNat + 1 = max s.len.toNat 1 ↔ ds.length = 0 := by omega
      rw [if_congr hlast rfl rfl] at hu
      exact hu.append hv
    · rw [hvbuf, hbuf, hidx, hsucc]
      rfl

/-! ### The command and the STOP of a transfer (R241, R217) -/

/-- HOST's write of `w` to CMD, when it is the next event (R240). -/
theorem step_hostCommand {w : Byte} {ins : List Input} (hrun : running s)
    (hin : s.inputs = .host (w :: offsetBytes 4) :: ins) :
    step s = commandWrite w { s with inputs := ins } := by
  have hdecode : decode s.cfg .host (w :: offsetBytes 4) = .ok (.hostWrite 4 w) :=
    decodeHost_write (off := 4) (by decide) w
  rw [step_eq_turn hrun.1 hrun.2, turn, hin]
  simp only [hostTurn, popInput, hin, List.tail_cons, hdecode]
  rfl

/-- What an accepted TRANSFER sets while RATE_CFG = 1 (R241). -/
def transferStarted (dir : Direction) (s : State) : State :=
  enterPhase .start
    { clearRej s with dir := dir, result := 0x00#8, outcome := .none, idx := 0x00#8, polls := 0 }

/-- HOST starts a transfer on an idle BLOCK that is configured, with an even SLA (R241). -/
theorem step_transfer (dir : Direction) (hrun : running s) (hidle : s.fsm = .idle)
    (hrate : s.rateCfg = true) (hsla : s.sla.getLsbD 0 = false)
    (hin : s.inputs =
      [.host ((match dir with | .write => 0x02#8 | .read => 0x03#8) :: offsetBytes 4)]) :
    step s = .next (transferStarted dir { s with inputs := [] }) := by
  have hwrite : step s = .next (whenIdle (startTransfer dir) { s with inputs := [] }) := by
    cases dir <;> exact step_hostCommand hrun hin
  have hbusy : State.busy { s with inputs := [] } = false := (not_busy_iff _).2 hidle
  have haccept : startTransfer dir { s with inputs := [] } =
      acceptTransfer dir { s with inputs := [] } := if_neg (Bool.eq_false_iff.1 hsla)
  rw [hwrite, whenIdle_idle _ _ hbusy, haccept]
  exact congrArg _ (if_pos hrate)

/-- The address phases of a transfer that HOST has started (R210). -/
theorem reaches_of_transferStarted (dir : Direction) {d0 d1 d2 d3 : EnvDraw} (hrun : running s)
    (henv : s.env = d0 :: d1 :: d2 :: d3 :: rest) (h0 : completes s.cfg d0)
    (h1 : answers s.cfg s.cfg.stAddrAckWrite d1) (h2 : answers s.cfg s.cfg.stDataAckWrite d2)
    (h3 : answers s.cfg s.cfg.stDataAckWrite d3) :
    ∃ u, Reaches [.start, .tx s.sla, .tx s.mah, .tx s.mal]
        (if dir = .read then .restart else if 0 < s.len.toNat then .writeData else .stop)
        (transferStarted dir { s with inputs := [] }) u ∧
      u.idx = 0#8 ∧ u.buf = s.buf :=
  AtIssue.reaches_addressed (s := transferStarted dir { s with inputs := [] })
    ⟨⟨hrun.1, hrun.2⟩, rfl, rfl, rfl⟩ henv h0 h1 h2 h3

/-- A started transfer that reaches STOP ends COMPLETE with the next step, having issued the
primitives on its way and STOP (R217). -/
theorem Reaches.transfer_completes {dir : Direction} {ps : List Primitive}
    (hstart : step s = .next (transferStarted dir { s with inputs := [] }))
    (h : Reaches ps .stop (transferStarted dir { s with inputs := [] }) u) :
    ∃ t, SafeRun (1 + (2 * ps.length + 1)) s t ∧ t.fsm = .idle ∧ t.outcome = .complete ∧
      t.result = 0x00#8 ∧ t.phase = .idle ∧ t.idx = u.idx ∧ t.cmdRej = false ∧ t.buf = u.buf ∧
      t.env = u.env ∧ t.trace = s.trace ++ (ps ++ [Primitive.stop]).map .prim := by
  have hsafe := safeRun_succ_iff.2 ⟨_, hstart,
    h.run.step_right (h.atIssue.step_eq.trans (exec_phStop_issue h.atIssue.sub))⟩
  rw [Nat.add_comm _ 1] at hsafe
  refine ⟨_, hsafe, rfl, rfl, h.same.result, rfl, rfl, h.same.cmdRej, rfl, rfl, ?_⟩
  simp [stopIssued, h.trace, transferStarted]

/-- Settles O57: the addresses, then the bytes of BUF, then STOP. -/
theorem faultFreeWriteCompletes : Obligations.FaultFreeWriteCompletes := by
  intro s bytes d0 d1 d2 d3 ds rest hrun hidle hrate hsla hin hlen hbuf hds henv h0 h1 h2 h3 hans
  have hstart := step_transfer .write hrun hidle hrate hsla hin
  obtain ⟨u, hu, huidx, hubuf⟩ := reaches_of_transferStarted .write hrun henv h0 h1 h2 h3
  have hulen : u.len = s.len := hu.same.len
  have hucfg : u.cfg = s.cfg := hu.same.cfg
  have huenv : u.env = ds ++ rest := hu.env.trans (congrArg (List.drop 4) henv)
  have hatIssue : AtIssue (if u.idx.toNat < u.len.toNat then .writeData else .stop) u := by
    rw [huidx, hulen]
    exact hu.atIssue
  obtain ⟨v, hv, hvidx, hvbuf⟩ := hatIssue.reaches_written (bytes := bytes)
    (by simp [huidx, hulen, hlen])
    (fun i hi => by simpa [huidx, hubuf] using hbuf i (hlen ▸ hi))
    (hds.trans hlen.symm) huenv (hucfg ▸ hans)
  obtain ⟨t, hsafe, hfsm, houtcome, hresult, hphase, htidx, hrej, htbuf, htenv, htrace⟩ :=
    (hu.append hv).transfer_completes hstart
  refine ⟨t, ?_, hfsm, houtcome, hresult, hphase, by rw [htidx, hvidx, hulen], hrej,
    by rw [htbuf, hvbuf, hubuf], ?_, htrace⟩
  · convert hsafe using 2
    simp [hlen]
    omega
  · rw [htenv, hv.env, huenv, List.drop_left' (by simp [hds, hlen])]

/-- Settles O58: the addresses, the restart for reading, then the bytes into BUF, then STOP. -/
theorem faultFreeReadCompletes : Obligations.FaultFreeReadCompletes := by
  intro s d0 d1 d2 d3 d4 d5 ds rest n hrun hidle hrate hsla hin hds henv h0 h1 h2 h3 h4 h5 hans
  have hstart := step_transfer .read hrun hidle hrate hsla hin
  obtain ⟨u, hu, huidx, hubuf⟩ := reaches_of_transferStarted .read hrun henv h0 h1 h2 h3
  have huenv : u.env = d4 :: d5 :: (ds ++ rest) := hu.env.trans (congrArg (List.drop 4) henv)
  have hucfg : u.cfg = s.cfg := hu.same.cfg
  have hatRestart : AtIssue .restart u := hu.atIssue
  obtain ⟨v, hv, hvidx, hvbuf⟩ := hatRestart.reaches_start (by decide) rfl
    (completePhase_restart d4) huenv (hucfg ▸ h4)
  have huv := hu.append hv
  have hvcfg : v.cfg = s.cfg := huv.same.cfg
  have hvsla : v.sla = s.sla := huv.same.sla
  have hexec : exec .phAddrR v = .next (runPhase .addrR (.tx (s.sla + 1#8)) v) := by
    rw [exec_phAddrR, execPhAddrR, State.readAddr, hvsla]
  obtain ⟨w, hw, hwidx, hwbuf⟩ := hv.atIssue.reaches_addressByte (e := (·.stAddrAckRead))
    (by decide) hexec (completePhase_addrR d5) (by rw [hv.env, huenv]; rfl) (hvcfg ▸ h5)
  have huw := huv.append hw
  have hwlen : w.len = s.len := huw.same.len
  have hwcfg : w.cfg = s.cfg := huw.same.cfg
  have hzero : w.idx = 0#8 := by rw [hwidx, hvidx, huidx]
  have hwenv : w.env = ds ++ rest := by
    rw [hw.env, hv.env, huenv]
    rfl
  have hatIssue : AtIssue (if w.idx.toNat < max w.len.toNat 1 then .readData else .stop) w := by
    rw [if_pos (by simp [hzero])]
    exact hw.atIssue
  obtain ⟨x, hx, hxidx, hxbuf⟩ := hatIssue.reaches_received (by simp [hzero, hwlen, hds, n]) hwenv
    (fun i d hd => by simpa [hwcfg, hzero, hwlen, n] using hans i d hd)
  obtain ⟨t, hsafe, hfsm, houtcome, hresult, hphase, htidx, hrej, htbuf, htenv, htrace⟩ :=
    (huw.append hx).transfer_completes hstart
  have hread : ∀ i, t.buf.read i =
      if i < n then ds[i]?.map EnvDraw.data else s.buf.read i := by
    intro i
    rw [htbuf, hxbuf, hwbuf, hvbuf, hubuf, hzero, Memory.read_writeFrom]
    simp [hds]
  obtain ⟨k, hk⟩ : ∃ k, n = k + 1 := Nat.exists_eq_succ_of_ne_zero (by omega)
  refine ⟨t, ?_, hfsm, houtcome, hresult, hphase, by rw [htidx, hxidx, hwlen], hrej, ?_,
    fun i hi => by rw [hread, if_pos hi], fun i hi => by rw [hread, if_neg (by omega)], ?_⟩
  · convert hsafe using 2
    simp [hds]
    omega
  · rw [htenv, hx.env, hwenv, List.drop_left' (by simp)]
  · rw [htrace, hds, hk, receptions_succ]
    simp

end Sys2Proof.Machine

/-! PROOFS. HOST's commands (44_host_commands.md): the rows of space CMD, the registers HOST reads and
writes beside them, the two phases of the commands without a transfer, and who writes CMD_REJ. -/

namespace Sys2Proof.Machine

variable {s t : State}

/-! ### A HOST write to CMD (R240, R251) -/

theorem exec_hostWrite_cmd (v : Byte) (s : State) :
    exec (.hostWrite 0x004 v) s = commandWrite v s := rfl

/-- The decoder and the CMD write go through the same eight bytes (R101). -/
theorem exec_decodeCmd (v : Byte) (s : State) : exec (decodeCmd v) s = commandWrite v s := by
  unfold decodeCmd commandWrite
  repeat' split
  all_goals rfl

/-- A busy BLOCK rejects every byte (R251). -/
theorem commandWrite_busy (v : Byte) (hbusy : s.busy = true) :
    commandWrite v s = .next (reject s) := by
  obtain ⟨t, h⟩ := exists_commandWrite_eq_next v s
  rcases commandWrite_next h with ⟨rfl, -⟩ | ⟨hidle, -⟩
  · exact h
  · exact absurd hidle ((busy_iff s).1 hbusy)

/-- A command that an idle BLOCK rejects is rejected whether BUSY is 0 or 1. -/
theorem whenIdle_eq_reject {f : State → State} (h : f s = reject s) :
    whenIdle f s = reject s := by
  cases hb : s.busy
  · rw [whenIdle_idle s f hb, h]
  · exact whenIdle_busy s f hb

/-- Settles O30: both sides are the CMD write of the byte. -/
theorem cmdWriteRunsDecodedCommand : Obligations.CmdWriteRunsDecodedCommand :=
  fun s v => (exec_hostWrite_cmd v s).trans (exec_decodeCmd v s).symm

/-- Settles O28: the row a byte decodes to is the CMD write of that byte. -/
theorem busyRejectsEveryCommand : Obligations.BusyRejectsEveryCommand := by
  intro s v hbusy
  rw [exec_hostWrite_cmd, exec_decodeCmd, commandWrite_busy v hbusy]
  exact ⟨rfl, rfl⟩

/-- Settles O29: a reserved row rejects in an idle BLOCK too. -/
theorem reservedCommandsAreRejected : Obligations.ReservedCommandsAreRejected := by
  intro s
  have hrejected : whenIdle reject s = reject s := whenIdle_eq_reject rfl
  rw [exec_reservedOp5, exec_reservedOp6, exec_reservedOp7, execReservedOp5, execReservedOp6,
    execReservedOp7, hrejected]
  refine ⟨rfl, rfl, rfl, fun rsv op => ?_⟩
  rw [exec_reservedRsv, execReservedRsv, hrejected, reject]

/-! ### The commands an idle BLOCK accepts (R242, R243, R247) -/

/-- Settles O23: NOP is the one command that clears CMD_REJ and starts nothing. -/
theorem nopClearsRejection : Obligations.NopClearsRejection := by
  intro s
  rw [exec_nop, execNop]
  refine ⟨fun hidle => ?_, fun hbusy => ?_⟩
  · rw [whenIdle_idle s _ hidle, clearRej]
  · rw [whenIdle_busy s _ hbusy, reject]

/-- Settles O24: the acceptance of a command without a transfer, in phase CONFIG. -/
theorem configureRateIsAccepted : Obligations.ConfigureRateIsAccepted := by
  intro s hidle
  rw [exec_configureRate, execConfigureRate, whenIdle_idle s _ hidle, acceptCommand, enterPhase,
    clearRej]

/-- Settles O25: the acceptance of a command without a transfer, in phase BUS_STOP. -/
theorem stopBusIsAccepted : Obligations.StopBusIsAccepted := by
  intro s hidle
  rw [exec_stopBus, execStopBus, whenIdle_idle s _ hidle, acceptCommand, enterPhase, clearRej]

/-! ### TRANSFER (R241, R250, R253) -/

theorem startTransfer_odd (d : Direction) (h : s.sla.getLsbD 0 = true) :
    startTransfer d s = reject s := if_pos h

theorem startTransfer_even (d : Direction) (h : s.sla.getLsbD 0 = false) :
    startTransfer d s = acceptTransfer d s := if_neg (Bool.eq_false_iff.1 h)

/-- An accepted TRANSFER differs in the fault record only, as RATE_CFG is 1 or 0 (R241, R253). -/
theorem acceptTransfer_eq (d : Direction) (s : State) : acceptTransfer d s = { s with
    cmdRej := false, result := 0x00#8, outcome := .none, idx := 0x00#8, dir := d
    fsm := .start, phase := .start, sub := .issue, polls := 0
    faulted := if s.rateCfg then s.faulted else some (s.faulted.getD .rateNotConfigured) } := by
  unfold acceptTransfer
  cases hrate : s.rateCfg <;> simp [recordFault, enterPhase, clearRej, hrate]

/-- Settles O26: an idle BLOCK with an even SLA accepts, in either direction. -/
theorem transferIsAccepted : Obligations.TransferIsAccepted := by
  intro s hidle hsla
  have haccepted : ∀ d, whenIdle (startTransfer d) s = acceptTransfer d s := fun d => by
    rw [whenIdle_idle s _ hidle, startTransfer_even d hsla]
  rw [exec_transferWrite, exec_transferRead, execTransferWrite, execTransferRead, haccepted,
    haccepted, acceptTransfer_eq, acceptTransfer_eq]
  exact ⟨rfl, rfl⟩

/-- Settles O27: an odd SLA is rejected by an idle BLOCK, and a busy one rejects anyway. -/
theorem oddSlaIsRejected : Obligations.OddSlaIsRejected := by
  intro s hsla
  rw [exec_transferWrite, exec_transferRead, execTransferWrite, execTransferRead,
    whenIdle_eq_reject (startTransfer_odd .write hsla),
    whenIdle_eq_reject (startTransfer_odd .read hsla)]
  exact ⟨rfl, rfl⟩

/-! ### The registers beside CMD (R254 to R256) -/

/-- Settles O13: each of the nine offsets names its register, and a read returns its value. -/
theorem hostReadsRegisters : Obligations.HostReadsRegisters :=
  fun _ => ⟨rfl, rfl, rfl, rfl, rfl, rfl, rfl, rfl, rfl⟩

theorem descriptorWrite_idle (u : State) (h : s.busy = false) : descriptorWrite u s = u := by
  simp [descriptorWrite, h]

theorem descriptorWrite_busy (u : State) (h : s.busy = true) :
    descriptorWrite u s = recordFault .descriptorWhileBusy s := by
  simp [descriptorWrite, h]

/-- The four offsets below CMD are the descriptor (R20). -/
theorem exec_hostWrite_descriptor {off : Nat} (h : off < 4) (v : Byte) (s : State) :
    ∃ u, exec (.hostWrite off v) s = .next (descriptorWrite u s) := by
  obtain rfl | rfl | rfl | rfl : off = 0 ∨ off = 1 ∨ off = 2 ∨ off = 3 := by omega
  all_goals exact ⟨_, rfl⟩

/-- Settles O17: BUSY decides between the byte stored and the fault, for the descriptor as for BUF. -/
theorem descriptorWrites : Obligations.DescriptorWrites := by
  intro s v
  refine ⟨fun hidle => ?_, fun hbusy hf => ⟨fun off hoff => ?_, fun i hi hsize => ?_⟩⟩
  · have stored : ∀ u, Host.Outcome.next (descriptorWrite u s) = (.next u : Result) :=
      fun u => congrArg _ (descriptorWrite_idle u hidle)
    exact ⟨stored _, stored _, stored _, stored _⟩
  · obtain ⟨u, h⟩ := exec_hostWrite_descriptor hoff v s
    rw [h, descriptorWrite_busy u hbusy, recordFault_of_none _ hf]
  · rw [exec_hostWrite_buf hi hsize, bufWrite_busy i v hbusy, recordFault_of_none _ hf]

/-! ### The phases of the commands without a transfer (R244, R248) -/

theorem exec_phConfig_issue (hs : s.sub = .issue) : exec .phConfig s = .next
    { rateIssued s.cfg.rateDivisor s with rateCfg := true, phase := .idle, fsm := .idle } := by
  rw [exec_phConfig, execPhConfig, runPhase_issue_ends s .config _ hs rfl, issued_setRate,
    finishPhase_config (s := rateIssued s.cfg.rateDivisor s) hs]

theorem exec_phBusStop_issue (hs : s.sub = .issue) : exec .phBusStop s = .next
    { stopIssued s with phase := .idle, fsm := .idle } := by
  rw [exec_phBusStop, execPhBusStop, runPhase_issue_ends s .busStop .stop hs rfl, issued_stop,
    finishPhase_busStop (s := stopIssued s) hs]

/-- Settles O46: neither primitive waits, so the ISSUE step runs the completion action too. -/
theorem idleConfigAndBusStopPhases : Obligations.IdleConfigAndBusStopPhases :=
  fun _ => ⟨rfl, exec_phConfig_issue, exec_phBusStop_issue⟩

/-! ### Who writes CMD_REJ (R252) -/

@[simp] theorem acceptTransfer_cmdRej (d : Direction) (s : State) :
    (acceptTransfer d s).cmdRej = false := by
  rw [acceptTransfer_eq]

/-- A CMD write leaves CMD_REJ 1 when it is rejected and 0 when it is not (R240, R252). -/
theorem cmdRej_of_commandWrite {v : Byte} (h : commandWrite v s = .next t) :
    t.cmdRej = true ↔ rejected v s := by
  rcases commandWrite_next h with ⟨rfl, hrejected⟩ | ⟨hidle, haccepted⟩
  · exact iff_of_true rfl hrejected
  · rcases haccepted with
      ⟨rfl, rfl⟩ | ⟨rfl, rfl⟩ | ⟨rfl, hsla, rfl⟩ | ⟨rfl, hsla, rfl⟩ | ⟨rfl, rfl⟩
    · simp [rejected, hidle]
    · simp [rejected, hidle, acceptCommand]
    · simpa [rejected, hidle] using hsla
    · simpa [rejected, hidle] using hsla
    · simp [rejected, hidle, acceptCommand]

@[simp] theorem completePhase_cmdRej (p : Phase) (s : State) :
    (completePhase p s).cmdRej = s.cmdRej := by
  by_cases hp : p ∈ waitingPhases
  · obtain ⟨reads, m, -, -, -, ⟨-, -, -, e⟩ | ⟨q, j, e, -⟩⟩ := completePhase_cases hp s
    · simp [e]
    · simp [e]
  · cases p
    case idle | config | stop | failStop | busStop => rfl
    all_goals exact absurd (by decide) hp

@[simp] theorem poll_cmdRej (p : Phase) (s : State) : (poll p s).cmdRej = s.cmdRej := by
  rcases pollWith_cases s s.nextDraw p with ⟨-, e⟩ | ⟨-, -, e⟩ | ⟨-, -, e⟩ <;> simp [poll, e]

@[simp] theorem finishPhase_cmdRej (p : Phase) (s : State) :
    (finishPhase p s).cmdRej = s.cmdRej := by
  cases p <;> simp [finishPhase]

/-- A turn of the BLOCK does not write CMD_REJ. -/
theorem turn_cmdRej {p : Phase} (h : exec (phaseInstr p) s = .next t) : t.cmdRej = s.cmdRej := by
  rcases phase_next h with ⟨-, rfl⟩ | ⟨-, -, q, -, rfl⟩ | ⟨-, -, q, -, rfl⟩ | ⟨-, -, rfl⟩ |
    ⟨-, -, -, rfl⟩
  · rfl
  · simp
  · simp
  · simp
  · simp

/-- A step whose next event is HOST's write to CMD is the CMD write of its byte (R240). -/
theorem commandWrite_of_writesCmd {v : Byte} (hcmd : writesCmd v s) (h : step s = .next t) :
    ∃ rest, commandWrite v { s with inputs := rest } = .next t := by
  obtain ⟨hwf, hf, hturn⟩ := step_next h
  rcases hcmd with ⟨w, rest, hin, hd⟩ | ⟨rest, hin⟩
  · simp only [turn, hin, hostTurn, popInput, List.tail_cons, hd] at hturn
    exact ⟨rest, hturn⟩
  · have hbyte := (rawTurn_byte (s := { s with inputs := rest }) (off := 4)
      (a := ⟨.write, 8, s.cfg.hostBase + 4, v⟩) rfl rfl).1 rfl
    rw [step_raw hwf hf hin, hbyte] at h
    exact ⟨rest, h⟩

/-- The reset input gives CMD_REJ its value of R60. -/
theorem cmdRej_of_resetNext (hreset : resetNext s) (h : step s = .next t) : t.cmdRej = false := by
  obtain ⟨-, -, hturn⟩ := step_next h
  obtain ⟨rest, hin⟩ := hreset
  rw [turn, hin] at hturn
  cases hturn
  rfl

/-- A step that is neither a CMD write nor a reset keeps CMD_REJ. -/
theorem cmdRej_of_other (hcmd : ∀ v, ¬ writesCmd v s) (hreset : ¬ resetNext s)
    (h : step s = .next t) : t.cmdRej = s.cmdRej := by
  obtain ⟨rest, hcase⟩ := step_cases h
  cases hcase with
  | block _ hexec => exact turn_cmdRej (s := { s with inputs := rest }) hexec
  | command v hv _ => exact absurd hv (hcmd v)
  | access f v ht => exact ht ▸ rfl
  | store a h l n m _ _ ht => exact ht ▸ rfl
  | reset hnext _ => exact absurd hnext hreset

/-- Settles O31: a CMD write by its acceptance, a reset by R60, and every other step by its case. -/
theorem cmdRejFollowsCmdWrites : Obligations.CmdRejFollowsCmdWrites := by
  intro s t h
  refine ⟨fun v hcmd => ?_, fun hreset => cmdRej_of_resetNext hreset h,
    fun hcmd hreset => cmdRej_of_other hcmd hreset h⟩
  obtain ⟨rest, hwrite⟩ := commandWrite_of_writesCmd hcmd h
  exact cmdRej_of_commandWrite (s := { s with inputs := rest }) hwrite

end Sys2Proof.Machine

/-! PROOFS. A WAIT without a limit (60_exceptions.md section 6). -/

namespace Sys2Proof.Machine

variable {s : State}

/-- A WAIT keeps the BLOCK busy (R30). -/
theorem MissingWait.busy (h : MissingWait s) : s.busy = true :=
  (busy_iff s).2 ((by decide : ∀ p ∈ waitingPhases, p ≠ .idle) _ h.fsm)

/-- Settles O55: without a limit no number of misses reaches it, so every poll is only counted. -/
theorem unboundedWaitHangs : Obligations.UnboundedWaitHangs := by
  intro s k hrun hlimit hin hp hs henv hmisses
  have hwait : MissingWait s := ⟨hrun, hin, hp, hs, hmisses⟩
  have hbelow : ∀ n, s.cfg.pollLimit = some n → s.polls + k < n := by simp [hlimit]
  obtain ⟨u, hsafe, hu⟩ := hwait.safeRun henv hbelow
  have huwait := hu.missingWait hwait
  obtain ⟨ctl, acc, rfl⟩ := hu
  exact ⟨_, hsafe, huwait.busy, rfl, hs, rfl, rfl, rfl, rfl, rfl, rfl⟩

end Sys2Proof.Machine

/-! PROOFS. The reset input (70_reset_and_hazards.md section 1): it is the whole step, from whatever
phase and sub-state, and leaves a BLOCK that takes the next command. -/

namespace Sys2Proof.Machine

variable {s : State} {rest : List Input}

/-- A reset that comes next in a running machine is the whole step (R310). -/
theorem step_reset (hrun : running s) (hin : s.inputs = .reset :: rest) :
    step s = .next (applyReset { s with inputs := rest }) := by
  obtain ⟨hwf, hf⟩ := hrun
  rw [step_eq_turn hwf hf]
  simp [turn, popInput, hin]

/-- The reset input ends whatever the BLOCK was doing (R310). -/
@[simp] theorem applyReset_busy (s : State) : (applyReset s).busy = false := rfl

/-- STAT depends on flags that reset gives their values of R60, so it reads as after reset (R25). -/
theorem applyReset_stat (s : State) : (applyReset s).stat = 0x00#8 := by
  have hflags : (applyReset s).stat = State.reset.stat := rfl
  rw [hflags]
  rfl

/-- Settles O10: the step is `applyReset`, whose fields are those of R60 or kept; it leaves the BLOCK
idle, and an idle BLOCK accepts CONFIGURE_RATE. -/
theorem resetEventFromAnyState : Obligations.ResetEventFromAnyState := by
  intro s rest hrun hin
  have haccepted := configureRateIsAccepted _ (applyReset_busy { s with inputs := rest })
  exact ⟨_, step_reset hrun hin,
    -- the registers and STAT's fields
    rfl, rfl, rfl, rfl, applyReset_stat _, rfl, rfl, rfl,
    -- the report and the buffer
    rfl, rfl, rfl, fun _ => rfl,
    -- the sequencer
    rfl, rfl, rfl, rfl, rfl,
    -- the trace, and what is kept (log entry 17)
    rfl, rfl, rfl, rfl, rfl,
    -- the next command
    _, haccepted, rfl, rfl⟩

end Sys2Proof.Machine

/-! PROOFS. The step (20_memory.md section 4): it runs the instruction its event decodes to, every row
of the table can be placed where the next step runs it, and the words of 30_encoding.md decode. -/

namespace Sys2Proof.Machine

variable {s : State} {i : Instr} {rest : List Input}

/-! ### The words of the tables (30_encoding.md) -/

/-- Settles O1: the decoder computes on each word. -/
theorem tableWordsDecode : Obligations.TableWordsDecode :=
  ⟨rfl, rfl, rfl, rfl, rfl, rfl, rfl, rfl, rfl, rfl, rfl, rfl, rfl, rfl⟩

/-! ### The step runs the decoded instruction (R30, R85, R89) -/

/-- HOST's access that comes next in a running machine is the instruction it decodes to (R122). -/
theorem step_host {w : List Byte} (hrun : running s) (hin : s.inputs = .host w :: rest)
    (hd : decode s.cfg .host w = .ok i) : step s = exec i { s with inputs := rest } := by
  obtain ⟨hwf, hf⟩ := hrun
  rw [step_eq_turn hwf hf, turn, hin]
  simp [hostTurn, popInput, hin, hd]

/-- A turn of the BLOCK that comes next in a running machine runs the row of its phase (R30). -/
theorem step_block (hrun : running s) (hin : s.inputs = .block :: rest) :
    step s = exec (phaseInstr s.fsm) { s with inputs := rest } := by
  obtain ⟨hwf, hf⟩ := hrun
  rw [step_eq_turn hwf hf, turn, hin]
  simp [blockTurn_eq, popInput, hin]

/-- When no event is left the BLOCK runs on its own (log entry 9). -/
theorem step_alone (hrun : running s) (hin : s.inputs = []) :
    step s = exec (phaseInstr s.fsm) s := by
  obtain ⟨hwf, hf⟩ := hrun
  rw [step_eq_turn hwf hf, turn, hin]
  exact blockTurn_eq s

/-- The code of a phase decodes to the row of that phase and to no other (R120). -/
theorem eq_phaseInstr_of_decode {c : Config} {p : Phase} (hd : decode c .phase [p.code] = .ok i) :
    phaseInstr p = i :=
  Except.ok.inj ((decode_phase_code c p).symm.trans hd)

/-- Settles O5, event by event. -/
theorem stepRunsDecodedInstruction : Obligations.StepRunsDecodedInstruction := by
  refine ⟨fun s i hrun => ⟨fun w rest hin hd => step_host hrun hin hd, fun rest hin hd => ?_,
    fun hin hd => ?_⟩, decode_phase_code⟩
  · rw [step_block hrun hin, eq_phaseInstr_of_decode hd]
  · rw [step_alone hrun hin, eq_phaseInstr_of_decode hd]

/-! ### Placing a row (log entry 7) -/

/-- Placing a row sets at most one parameter, `RATE_DIVISOR`, of which R9 asks nothing. -/
theorem place_running (hrun : running s) (i : Instr) : running (place i s) := by
  obtain ⟨hwf, hf⟩ := hrun
  have hcfg : ∃ d, (place i s).cfg = { s.cfg with rateDivisor := d } := by
    cases i
    case setRate d => exact ⟨d, rfl⟩
    all_goals exact ⟨s.cfg.rateDivisor, rfl⟩
  have hfault : (place i s).faulted = s.faulted := by cases i <;> rfl
  obtain ⟨d, hd⟩ := hcfg
  exact ⟨hd ▸ hwf, hfault.trans hf⟩

theorem place_inputs (i : Instr) (s : State) :
    (place i s).inputs = trigger s.cfg i :: s.inputs := rfl

/-- Using up the trigger leaves the prepared state. -/
theorem place_popped (i : Instr) (s : State) :
    { place i s with inputs := s.inputs } = prepare i s := by
  cases i <;> rfl

/-- A well-formed row of space CMD has the one byte that decodes to it (R101, R102). -/
theorem cmdRow_byte (hcmd : spaceOf i = .cmd) (hi : i.wellFormed = true) :
    ∃ v, (∀ c, encode c i = [v]) ∧ decodeCmd v = i := by
  cases i
  case nop | configureRate | transferWrite | transferRead | stopBus | reservedOp5 | reservedOp6
      | reservedOp7 => exact ⟨_, fun _ => rfl, rfl⟩
  case reservedRsv rsv op =>
    exact ⟨_, fun _ => rfl, decodeCmd_reserved op (of_decide_eq_true hi)⟩
  all_goals nomatch hcmd

/-- A placed CMD byte is HOST's write of it at offset 4 (R100). -/
theorem step_place_cmd (hrun : running s) (hcmd : spaceOf i = .cmd) (hi : i.wellFormed = true) :
    step (place i s) = exec i (prepare i s) := by
  obtain ⟨v, hencode, hv⟩ := cmdRow_byte hcmd hi
  have hin : (place i s).inputs = .host (v :: offsetBytes 4) :: s.inputs := by
    rw [place_inputs, trigger, hcmd, hencode]
    rfl
  have hd : decode (place i s).cfg .host (v :: offsetBytes 4) = .ok (.hostWrite 4 v) :=
    decodeHost_write (off := 4) (by decide) v
  rw [step_host (place_running hrun i) hin hd, place_popped, exec_hostWrite_cmd, ← exec_decodeCmd, hv]

/-- A placed HOST access is the next access (R122). -/
theorem step_place_host (hrun : running s) (hhost : spaceOf i = .host) (hi : i.wellFormed = true) :
    step (place i s) = exec i (prepare i s) := by
  have hin : (place i s).inputs = .host (encode s.cfg i) :: s.inputs := by
    rw [place_inputs, trigger, hhost]
  have hd : decode (place i s).cfg .host (encode s.cfg i) = .ok i := by
    cases i
    case hostWrite off v => exact decodeHost_write (of_decide_eq_true hi) v
    case hostRead off => exact decodeHost_read (of_decide_eq_true hi)
    all_goals nomatch hhost
  rw [step_host (place_running hrun i) hin hd, place_popped]

/-- The draw of a placed answer completes already, so a row of STATUS with its byte adds nothing. -/
theorem drawWithStatus_atAnswer (p : Phase) (v : Byte) (s : State) :
    (atAnswer p v s).drawWithStatus v = (atAnswer p v s).nextDraw := by
  simp [State.drawWithStatus, State.nextDraw, atAnswer, atPhase]

/-- A turn of the phase that waits for a placed answer is the row of STATUS that answers it. -/
theorem exec_phaseInstr_atAnswer {p : Phase} (hp : p ∈ waitingPhases) (v : Byte) (s : State) :
    exec (phaseInstr p) (atAnswer p v s) = .next (answerStatus v (atAnswer p v s)) := by
  have hanswer : answerStatus v (atAnswer p v s) =
      pollWith ((atAnswer p v s).drawWithStatus v) p (atAnswer p v s) := rfl
  rw [exec_phaseInstr_wait hp rfl, hanswer, drawWithStatus_atAnswer, poll]

/-- The BLOCK's turn in the prepared state is the row: the phase issues the same primitive with the same
byte, or polls the answer the row names. -/
theorem exec_phaseInstr_prepare (hblock : blockRow i) (s : State) :
    exec (phaseInstr (prepare i s).fsm) (prepare i s) = exec i (prepare i s) := by
  obtain ⟨hcmd, hhost⟩ := hblock
  cases i
  case startSent => exact exec_phaseInstr_atAnswer (p := .start) (by decide) _ _
  case addrAckWrite => exact exec_phaseInstr_atAnswer (p := .addrW) (by decide) _ _
  case addrAckRead => exact exec_phaseInstr_atAnswer (p := .addrR) (by decide) _ _
  case dataAckWrite => exact exec_phaseInstr_atAnswer (p := .memH) (by decide) _ _
  case dataAckRead | dataNackRead => exact exec_phaseInstr_atAnswer (p := .readData) (by decide) _ _
  case addrReadByte a =>
    have hread : (prepare (.addrReadByte a) s).readAddr = addressByte a 1#1 :=
      (addressByte_read_eq_add a).symm
    exact congrArg (fun b => Host.Outcome.next (runPhase .addrR (.tx b) _)) hread
  case nop | configureRate | transferWrite | transferRead | stopBus | reservedOp5 | reservedOp6
      | reservedOp7 | reservedRsv => exact absurd rfl hcmd
  case hostWrite | hostRead => exact absurd rfl hhost
  all_goals rfl

/-- A placed row of the other spaces is run by the BLOCK's own turn (R30). -/
theorem step_place_block (hrun : running s) (hblock : blockRow i) :
    step (place i s) = exec i (prepare i s) := by
  obtain ⟨hcmd, hhost⟩ := hblock
  have hin : (place i s).inputs = .block :: s.inputs := by
    rw [place_inputs, trigger]
    split
    · exact absurd ‹_› hhost
    · exact absurd ‹_› hcmd
    all_goals rfl
  rw [step_block (place_running hrun i) hin, place_popped]
  exact exec_phaseInstr_prepare ⟨hcmd, hhost⟩ s

/-- Settles O6: by the space of the row, whose trigger is HOST's access or the BLOCK's turn. -/
theorem stepRunsEveryPlacedRow : Obligations.StepRunsEveryPlacedRow := by
  intro s i hrun hi
  by_cases hcmd : spaceOf i = .cmd
  · exact step_place_cmd hrun hcmd hi
  by_cases hhost : spaceOf i = .host
  · exact step_place_host hrun hhost hi
  · exact step_place_block hrun ⟨hcmd, hhost⟩

/-! ### The invariant at reset (R60) -/

/-- Settles O11: after a reset input the state differs from the reset state only in what the invariant
does not read. -/
theorem invHoldsAtReset : Obligations.InvHoldsAtReset :=
  (inv_applyReset State.reset).congr rfl

end Sys2Proof.Machine

/-! PROOFS. What a row leaves unchanged: the nine rows of space CMD (44_host_commands.md sections 1 to
3), and the rows the BLOCK or ENV runs (40_bus_primitives.md to 43_transaction.md). -/

namespace Sys2Proof.Machine

variable {s t : State} {i : Instr} {p : Phase}

/-! ### The rows of space CMD (R240) -/

/-- Every row of space CMD is the CMD write of a byte, which is 0x00 for NOP and a TRANSFER's for the
TRANSFERs only (R101). -/
theorem cmdRow_eq_commandWrite (hcmd : spaceOf i = .cmd) :
    ∃ v, (∀ s, exec i s = commandWrite v s) ∧ (i = .nop → v = 0x00#8) ∧
      (v = 0x02#8 → i = .transferWrite) ∧ (v = 0x03#8 → i = .transferRead) := by
  cases i
  case nop => exact ⟨0x00#8, fun _ => rfl, by decide⟩
  case configureRate => exact ⟨0x01#8, fun _ => rfl, by decide⟩
  case transferWrite => exact ⟨0x02#8, fun _ => rfl, by decide⟩
  case transferRead => exact ⟨0x03#8, fun _ => rfl, by decide⟩
  case stopBus => exact ⟨0x04#8, fun _ => rfl, by decide⟩
  -- every reserved row has the one meaning of R249
  case reservedOp5 | reservedOp6 | reservedOp7 | reservedRsv =>
    exact ⟨0x05#8, fun _ => rfl, nofun, fun hv => absurd hv (by decide),
      fun hv => absurd hv (by decide)⟩
  all_goals nomatch hcmd

/-- Settles O34: a CMD write rejects, clears CMD_REJ, or accepts a command, and an accepted command is no
NOP, meets an idle BLOCK and leaves CMD_REJ 0. -/
theorem commandRowsFrame : Obligations.CommandRowsFrame := by
  intro i s t hcmd h
  obtain ⟨v, hrow, hnop, hwrite, hread⟩ := cmdRow_eq_commandWrite hcmd
  rw [hrow] at h
  have accepted : s.fsm = .idle → v ≠ 0x00#8 → t.cmdRej = false →
      ¬ (i = .nop ∨ s.busy = true ∨ t.cmdRej = true) := by
    rintro hidle hv hrej (hi | hbusy | hrej')
    · exact hv (hnop hi)
    · exact (busy_iff s).1 hbusy hidle
    · simp [hrej] at hrej'
  rcases commandWrite_next h with
    ⟨rfl, -⟩ | ⟨hidle, ⟨-, rfl⟩ | ⟨hv, rfl⟩ | ⟨hv, -, rfl⟩ | ⟨hv, -, rfl⟩ | ⟨hv, rfl⟩⟩
  · exact ⟨rfl, fun _ => rfl, fun _ _ => rfl, fun _ => rfl⟩
  · exact ⟨rfl, fun _ => rfl, fun _ _ => rfl, fun _ => rfl⟩
  · exact ⟨rfl, fun _ => rfl, fun _ _ => rfl, fun hr => absurd hr (accepted hidle (by simp [hv]) rfl)⟩
  · have hrej := accepted hidle (by simp [hv]) (by simp)
    rw [acceptTransfer_eq] at hrej ⊢
    exact ⟨rfl, fun _ => rfl, fun hi => absurd (hwrite hv) hi, fun hr => absurd hr hrej⟩
  · have hrej := accepted hidle (by simp [hv]) (by simp)
    rw [acceptTransfer_eq] at hrej ⊢
    exact ⟨rfl, fun _ => rfl, fun _ hi => absurd (hread hv) hi, fun hr => absurd hr hrej⟩
  · exact ⟨rfl, fun _ => rfl, fun _ _ => rfl, fun hr => absurd hr (accepted hidle (by simp [hv]) rfl)⟩

/-! ### An ISSUE step of the BLOCK or ENV (R142) -/

/-- What an ISSUE step of phase `p` from `s` to `t` may change: the controller, the records, the phase
and the report, with RATE_CFG in CONFIG only and OUTCOME on the return to IDLE only. -/
structure IssueFrame (p : Phase) (s t : State) : Prop where
  kept : t = { s with
    ctl := t.ctl, accesses := t.accesses, trace := t.trace, fsm := t.fsm, phase := t.phase
    sub := t.sub, polls := t.polls, outcome := t.outcome, rateCfg := t.rateCfg }
  rateCfg : t.rateCfg = s.rateCfg ∨ p = .config
  outcome : t.outcome = s.outcome ∨ t.fsm = .idle

/-- A primitive's issue is seen in the controller, in the log of accesses and in the trace only
(R143). -/
theorem issuePrimitive_eq (q : Primitive) (s : State) : ∃ c acc, issuePrimitive q s =
    { s with ctl := c, accesses := acc, trace := s.trace ++ [.prim q] } := by
  cases q
  case setRate d => exact ⟨_, _, issued_setRate d s⟩
  all_goals exact ⟨_, _, rfl⟩

theorem finishPhase_issueFrame (p : Phase) (s : State) : IssueFrame p s (finishPhase p s) := by
  cases p
  case config => exact ⟨rfl, .inr rfl, .inl rfl⟩
  case stop | failStop => exact ⟨rfl, .inl rfl, .inr rfl⟩
  all_goals exact ⟨rfl, .inl rfl, .inl rfl⟩

/-- The ISSUE step of a phase, whatever the primitive (R142). -/
theorem runPhase_issueFrame (p : Phase) (q : Primitive) (hs : s.sub = .issue) :
    IssueFrame p s (runPhase p q s) := by
  obtain ⟨c, acc, hissue⟩ := issuePrimitive_eq q s
  rcases runPhase_cases p q s with ⟨-, -, e⟩ | ⟨-, -, e⟩ | ⟨-, -, -, e⟩ | ⟨hw, -⟩
  · rw [e, hissue]
    exact ⟨rfl, .inl rfl, .inl rfl⟩
  · rw [e, hissue]
    exact { finishPhase_issueFrame p _ with }
  · rw [e, hissue]
    exact ⟨rfl, .inl rfl, .inl rfl⟩
  · simp [hs] at hw

/-! ### A WAIT step of the BLOCK or ENV (R145) -/

/-- What a WAIT step of phase `p` from `s` to `t` may change: ENV's answers, the registers that show
them, the phase and the report; BUF at IDX in READ_DATA only, IDX by one step up in the data phases
only, and OUTCOME on the return to IDLE only. -/
structure WaitFrame (p : Phase) (s t : State) : Prop where
  kept : t = { s with
    ctl := t.ctl, env := t.env, draws := t.draws, accesses := t.accesses, buf := t.buf
    idx := t.idx, fsm := t.fsm, phase := t.phase, sub := t.sub, polls := t.polls
    result := t.result, outcome := t.outcome, pend := t.pend }
  rate : t.ctl.rate = s.ctl.rate
  prescaler : t.ctl.prescaler = s.ctl.prescaler
  buf : ∀ a, a ≠ s.bufIndex → t.buf.read a = s.buf.read a
  bufWhole : p ≠ .readData → t.buf = s.buf
  idx : t.idx = s.idx ∨ (t.idx = s.idx + 1#8 ∧ (p = .readData ∨ p = .writeData))
  outcome : t.outcome = s.outcome ∨ t.fsm = .idle

theorem WaitFrame.refl (p : Phase) (s : State) : WaitFrame p s s :=
  ⟨rfl, rfl, rfl, fun _ _ => rfl, fun _ => rfl, .inl rfl, .inl rfl⟩

/-- Entry into the fail path from a poll that has left IDX and OUTCOME as they are (R220). -/
theorem failPath_waitFrame (code : Byte) (q : Pend) {c : Controller} {env : List EnvDraw}
    {draws n : Nat} {acc : List EnvAccess} {m : Memory} (hrate : c.rate = s.ctl.rate)
    (hprescaler : c.prescaler = s.ctl.prescaler)
    (hbuf : ∀ a, a ≠ s.bufIndex → m.read a = s.buf.read a) (hwhole : p ≠ .readData → m = s.buf) :
    WaitFrame p s (failPath code q p { s with
      ctl := c, env := env, draws := draws, accesses := acc, buf := m, polls := n }) := by
  rcases failPath_cases { s with
      ctl := c, env := env, draws := draws, accesses := acc, buf := m, polls := n } code q p with
    ⟨-, e⟩ | ⟨-, e⟩ <;> rw [e]
  · exact ⟨rfl, hrate, hprescaler, hbuf, hwhole, .inl rfl, .inl rfl⟩
  · exact ⟨rfl, hrate, hprescaler, hbuf, hwhole, .inl rfl, .inr rfl⟩

/-- The completion of a phase that never waits returns to ISSUE. -/
theorem completePhase_of_not_waiting (hp : p ∉ waitingPhases) (s : State) :
    completePhase p s = { s with sub := .issue } := by
  cases p
  case idle | config | stop | failStop | busStop => rfl
  all_goals exact absurd (by decide) hp

/-- A poll of any phase (R145), also of one that never waits. -/
theorem poll_waitFrame (p : Phase) (s : State) : WaitFrame p s (poll p s) := by
  by_cases hp : p ∈ waitingPhases
  · obtain ⟨c, acc, -, hrate, hprescaler, ⟨-, e⟩ | ⟨m, n, code, q, e, hbuf, hwhole, -⟩ |
      ⟨m, q, j, e, hbuf, hwhole, hidx, -⟩⟩ := poll_cases hp s <;> rw [e]
    · exact ⟨rfl, hrate, hprescaler, fun _ _ => rfl, fun _ => rfl, .inl rfl, .inl rfl⟩
    · exact failPath_waitFrame code q hrate hprescaler hbuf hwhole
    · exact ⟨rfl, hrate, hprescaler, hbuf, hwhole, hidx, .inl rfl⟩
  · rcases pollWith_cases s s.nextDraw p with ⟨-, e⟩ | ⟨-, -, e⟩ | ⟨-, -, e⟩ <;> rw [poll, e]
    · rw [completePhase_of_not_waiting hp]
      exact { WaitFrame.refl p s with kept := rfl }
    · exact { WaitFrame.refl p s with kept := rfl }
    · exact failPath_waitFrame _ _ rfl rfl (fun _ _ => rfl) fun _ => rfl

/-- A poll that answers `d`, which uses up one of ENV's answers like any other. -/
theorem pollWith_waitFrame (d : EnvDraw) (p : Phase) (s : State) :
    WaitFrame p s (pollWith d p s) :=
  { poll_waitFrame p { s with env := d :: s.env.tail } with }

/-! ### The rows the BLOCK and ENV run -/

/-- What a step of phase `p` may change, in ISSUE or in WAIT as `sub` says (R142). -/
def TurnFrame (p : Phase) (s t : State) : Prop :=
  (s.sub = .issue ∧ IssueFrame p s t) ∨ (s.sub = .wait ∧ WaitFrame p s t)

theorem TurnFrame.refl (p : Phase) (s : State) : TurnFrame p s s := by
  cases hs : s.sub
  · exact .inl ⟨hs, rfl, .inl rfl, .inl rfl⟩
  · exact .inr ⟨hs, .refl p s⟩

theorem runPhase_turnFrame (p : Phase) (q : Primitive) (s : State) :
    TurnFrame p s (runPhase p q s) := by
  cases hs : s.sub
  · exact .inl ⟨hs, runPhase_issueFrame p q hs⟩
  · exact .inr ⟨hs, runPhase_wait s p q hs ▸ poll_waitFrame p s⟩

/-- A row of STATUS is a completing poll of phase `fsm`, or shows its byte (log entry 12). -/
theorem answerStatus_turnFrame (v : Byte) (s : State) : TurnFrame s.fsm s (answerStatus v s) := by
  unfold answerStatus
  split
  case h_1 hs => exact .inr ⟨hs, pollWith_waitFrame _ _ s⟩
  case h_2 hs => exact .inl ⟨hs, rfl, .inl rfl, .inl rfl⟩

/-- WRITE_DATA records a fault where no one wrote the byte, and is otherwise a step of its phase
(R190). -/
theorem phWriteData_turnFrame (h : exec .phWriteData s = .next t) :
    t = recordFault .txUnwritten s ∨ TurnFrame .writeData s t := by
  rw [exec_phWriteData, execPhWriteData] at h
  split at h <;> cases h
  · exact .inl rfl
  · exact .inr (runPhase_turnFrame _ _ s)
  · exact .inr (.inr ⟨‹_›, poll_waitFrame _ s⟩)

/-- Every row outside CMD and HOST is a step of the phase it belongs to, but for the fault of
WRITE_DATA. -/
theorem blockRow_turnFrame (hblock : blockRow i) (h : exec i s = .next t) :
    (i = .phWriteData ∧ t = recordFault .txUnwritten s) ∨ TurnFrame (phaseOf i s) s t := by
  obtain ⟨hcmd, hhost⟩ := hblock
  cases i
  case nop | configureRate | transferWrite | transferRead | stopBus | reservedOp5 | reservedOp6
      | reservedOp7 | reservedRsv => exact absurd rfl hcmd
  case hostWrite | hostRead => exact absurd rfl hhost
  case phWriteData => exact (phWriteData_turnFrame h).imp (⟨rfl, ·⟩) id
  case phIdle =>
    cases h
    exact .inr (.refl _ s)
  case startSent | addrAckWrite | addrAckRead | dataAckWrite | dataAckRead | dataNackRead =>
    cases h
    exact .inr (answerStatus_turnFrame _ s)
  all_goals
    cases h
    exact .inr (runPhase_turnFrame _ _ s)

/-- Settles O38: the frame of an ISSUE step, that of a WAIT step, and the fault of WRITE_DATA, which
changes only the record. -/
theorem blockRowsFrame : Obligations.BlockRowsFrame := by
  intro i s t hblock h
  rcases blockRow_turnFrame hblock h with
    ⟨hi, rfl⟩ | ⟨hs, kept, rateCfg, outcome⟩ |
    ⟨hs, kept, rate, prescaler, buf, bufWhole, idx, outcome⟩
  · exact ⟨rfl, rfl, rfl, rfl, rfl, rfl, rfl, rfl, rfl, fun _ _ => rfl, fun _ _ => rfl, .inl rfl,
      .inl rfl, .inl rfl, fun _ => ⟨rfl, rfl, rfl, rfl⟩, fun _ => ⟨rfl, rfl, rfl⟩, .inr hi⟩
  · rw [kept]
    exact ⟨rfl, rfl, rfl, rfl, rfl, rfl, rfl, rfl, rfl, fun _ _ => rfl, fun _ _ => rfl, rateCfg,
      outcome, .inl rfl, fun _ => ⟨rfl, rfl, rfl, rfl⟩, fun hw => by simp [hs] at hw, .inl rfl⟩
  · have hwhole : s.sub = .issue ∨ phaseOf i s ≠ .readData → ∀ a, t.buf.read a = s.buf.read a :=
      fun hp _ => by rw [bufWhole (hp.resolve_left (by simp [hs]))]
    rw [kept]
    exact ⟨rfl, rfl, rfl, rfl, rfl, rfl, rfl, rfl, rfl, buf, hwhole, .inl rfl, outcome,
      idx.imp id (⟨hs, ·⟩), fun hissue => by simp [hs] at hissue, fun _ => ⟨rfl, rate, prescaler⟩,
      .inl rfl⟩

end Sys2Proof.Machine
